-- ==== Sys2Proof/Word.lean ====
section
/-! DEFINITION. The word types of USBDEV: 32-bit registers, bytes, and the numbers of buffers, endpoints and buffer
words (spec/00_scope.md R7, R11). -/

namespace Sys2Proof

/-- A register value or a data word (`u32`, R11). -/
abbrev Word := BitVec 32

/-- One byte of a packet buffer or of the caller's memory. -/
abbrev Byte := BitVec 8

/-- A packet buffer's id, 0..31 (`NUM_BUF` = 32, R7). -/
abbrev BufId := Fin 32

/-- An endpoint number, 0..11 (`NUM_EP` = 12, R7). -/
abbrev EpId := Fin 12

/-- The index of a 32-bit word inside a 64-byte buffer. -/
abbrev WordIx := Fin 16

/-- The index of a byte inside a buffer (`BUF_BYTES` = 64, R7). -/
abbrev ByteIx := Fin 64

end Sys2Proof
end

