-- ==== Sys2Proof/Config.lean ====
section
/-! DEFINITION. What an implementation fixes (spec/00_scope.md R7, R8) and the values the spec leaves free: the
parameters are one plain record, and every draw of `SW` and of reset is a constant with no body. -/

namespace Sys2Proof

/-- The 18 interrupt sources, in the order of the table of R341. -/
inductive IntrSource where
  | packetReceived | packetSent | disconnected | hostLost | linkReset | linkSuspend | linkResume
  | availableOutEmpty | receiveFull | availableBufferOverflow | linkInError | receiveCrcError
  | receivePidError | receiveBitstuffError | frameUpdated | powered | linkOutError | availableSetupEmpty
  deriving DecidableEq, Repr

/-- The row of a source in the table of R341. -/
def IntrSource.index : IntrSource → Fin 18
  | .packetReceived => 0
  | .packetSent => 1
  | .disconnected => 2
  | .hostLost => 3
  | .linkReset => 4
  | .linkSuspend => 5
  | .linkResume => 6
  | .availableOutEmpty => 7
  | .receiveFull => 8
  | .availableBufferOverflow => 9
  | .linkInError => 10
  | .receiveCrcError => 11
  | .receivePidError => 12
  | .receiveBitstuffError => 13
  | .frameUpdated => 14
  | .powered => 15
  | .linkOutError => 16
  | .availableSetupEmpty => 17

/-- A stretch of the caller's ordinary memory `MEM` (R81). -/
structure Region where
  base : Nat
  size : Nat
  deriving DecidableEq, Repr

/-- The named arguments of the model (R8). DESIGN CHOICE: the record stands in State (log 11). -/
structure Params where
  /-- `REG_OFFSET(INTR_STATE)`: the offset of the first register. The constraint of R8 (sequential, 4-byte steps, no
  padding, in the order of R113) fixes the other 35 from it: `Params.regOffset`. -/
  regBase : Nat
  /-- `BUF_BASE`, a multiple of 64, at or after the end of the register block -/
  bufBase : Nat
  /-- `WINDOW_BYTES`, `BUF_BASE + NUM_BUF * BUF_BYTES` -/
  windowBytes : Nat
  /-- `AVOUT_CAP`, 1..15 -/
  avOutCap : Nat
  /-- `AVSETUP_CAP`, 1..7 -/
  avSetupCap : Nat
  /-- `RX_CAP`, 1..15 -/
  rxCap : Nat
  /-- `INTR_BIT`: the position of each source, by its row in R341 -/
  intrBit : Vector (Fin 18) 18
  /-- `SETUP_CLEARS_STALL` (R312), OPEN -/
  setupClearsStall : Bool
  /-- `STATUS_FAIL` (R14), any non-zero value -/
  statusFail : Word
  /-- `USBDEV_BASE` divided by 0x1000, OPEN -/
  usbdevPage : BitVec 20
  /-- the extent of the caller's memory (R81, log 14) -/
  callerMem : List Region
  deriving DecidableEq, Repr

namespace Config

/-- `MAX_PKT` (R7). -/
def maxPkt : Nat := 64

/-- The bytes of the register block: 36 words (R80, R113). -/
def regBytes : Nat := 0x90

/-- `NUM_BUF * BUF_BYTES`, the bytes of packet buffer memory (R7, R53). -/
def bufMemBytes : Nat := 0x800

/-- The bytes that the 12 bits of OFF address, and the step of `USBDEV_BASE` (R8, R111). -/
def pageBytes : Nat := 0x1000

/-- FREE: `SETUP_CLEARS_STALL` of the machine after reset (R8: OPEN). Log 13. -/
opaque setupClearsStall : Bool

/-- FREE: the page `USBDEV_BASE` lies at (R8: OPEN). Log 13. -/
opaque usbdevPage : BitVec 20

/-- FREE: `USBSTAT.Sense` at reset, a draw (R30, R380). Log 9. -/
opaque resetSense : Bool

/-- FREE: bits 31:1 of PHY_CONFIG at reset, a draw (R47, R380). Log 9. -/
opaque resetPhyHigh : BitVec 31

/-- FREE: the byte of packet buffer memory at each index 64*b + j at reset, a draw (R53, R380). Log 9. -/
opaque resetBufByte : Nat → Byte

/-- FREE: the word the n-th draw of a `SW` read returns (R161 of an empty FIFO, R185). Log 8. -/
opaque freeWord : Nat → Word

/-- FREE: the Bool the n-th draw of a `SW` write takes (R176, Pending). Log 8. -/
opaque freeBool : Nat → Bool

end Config

/-- The parameters at the spec's defaults (R8), the OPEN ones left free. -/
def Params.default : Params where
  regBase := 0x000
  bufBase := 0x800
  windowBytes := 0x1000
  avOutCap := 8
  avSetupCap := 4
  rxCap := 8
  intrBit := #v[0, 1, 2, 3, 4, 5, 6, 7, 8, 9, 10, 11, 12, 13, 14, 15, 16, 17]
  setupClearsStall := Config.setupClearsStall
  statusFail := 0xFFFFFFFF#32
  usbdevPage := Config.usbdevPage
  callerMem := [⟨0, 4294967296⟩]

/-- `INTR_BIT(name)` (R8, R341). -/
def Params.bitOf (p : Params) (src : IntrSource) : Fin 18 := p.intrBit[src.index]

/-- `REG_OFFSET` of the register that the table of R113 puts at `off` (R8, R113). -/
def Params.regOffset (p : Params) (off : Nat) : Nat := p.regBase + off

/-- An offset lies in the register block (R80, R113). -/
abbrev Params.InRegisters (p : Params) (off : Nat) : Prop := p.regBase ≤ off ∧ off < p.regBase + Config.regBytes

/-- An offset lies in packet buffer memory (R80). -/
abbrev Params.InBuffers (p : Params) (off : Nat) : Prop := p.bufBase ≤ off ∧ off < p.bufBase + Config.bufMemBytes

/-- The constraints R8 puts on the layout of the window. DEDUCED (log 12): the first register is 4-byte aligned (R7), and
the window ends at 0x1000 at the latest, because OFF has 12 bits (R111, R123). -/
abbrev Params.LayoutOk (p : Params) : Prop :=
  p.regBase % 4 = 0 ∧ p.bufBase % 64 = 0 ∧ p.regBase + Config.regBytes ≤ p.bufBase ∧
    p.windowBytes = p.bufBase + Config.bufMemBytes ∧ p.windowBytes ≤ Config.pageBytes

/-- The constraints R8 puts on the parameters. -/
abbrev Params.Ok (p : Params) : Prop :=
  p.LayoutOk ∧ (1 ≤ p.avOutCap ∧ p.avOutCap ≤ 15) ∧ (1 ≤ p.avSetupCap ∧ p.avSetupCap ≤ 7) ∧
    (1 ≤ p.rxCap ∧ p.rxCap ≤ 15) ∧ p.intrBit.toList.Nodup ∧ p.statusFail ≠ 0#32

/-- `USBDEV_BASE` (R8). -/
def Params.usbdevBase (p : Params) : Nat := p.usbdevPage.toNat * Config.pageBytes

/-- The window offset of a bus address, when the address lies in the window (R80). -/
def Params.offsetOf (p : Params) (addr : Word) : Option Nat :=
  if p.usbdevBase ≤ addr.toNat ∧ addr.toNat < p.usbdevBase + p.windowBytes then some (addr.toNat - p.usbdevBase)
  else none

end Sys2Proof
end

