-- ==== Sys2Proof/Syntax.lean ====
section
/-! DEFINITION. The commands of `SW` (spec/30_encoding.md): the descriptor word with what stands beside it, and `Instr`,
one constructor for each row of spec/opcode_table.json. -/

namespace Sys2Proof

/-- The operand slots `x[0]`..`x[5]` of an operation (R20, R116). A slot holds any number: a value that does not fit its
operand's width is refused by the operation. -/
structure Slots where
  x0 : Nat := 0
  x1 : Nat := 0
  x2 : Nat := 0
  x3 : Nat := 0
  x4 : Nat := 0
  x5 : Nat := 0
  deriving DecidableEq, Repr

/-- A command as the caller gives it (R110): the descriptor word, the data word beside a write TD, the operand slots
beside an OD. -/
structure Cmd where
  desc : Word
  data : Word := 0#32
  x : Slots := {}
  deriving DecidableEq, Repr

/-- The instructions: the rows of the opcode table. `v` is a write's data word; `b` a buffer, `k` a word of it, `j` a byte
of it, `h` a halfword of it; in an unmapped row `k` counts the words from the row's first offset. The operands of an
operation are the numbers its slots hold, in slot order (R116). -/
inductive Instr where
  /-- RD_INTR_STATE, R141 -/
  | rdIntrState
  /-- WR_INTR_STATE, R142 -/
  | wrIntrState (v : Word)
  /-- RD_INTR_ENABLE, R143 -/
  | rdIntrEnable
  /-- WR_INTR_ENABLE, R144 -/
  | wrIntrEnable (v : Word)
  /-- RD_INTR_TEST, R145 -/
  | rdIntrTest
  /-- WR_INTR_TEST, R146 -/
  | wrIntrTest (v : Word)
  /-- RD_ALERT_TEST, R147 -/
  | rdAlertTest
  /-- WR_ALERT_TEST, R148 -/
  | wrAlertTest (v : Word)
  /-- RD_USBCTRL, R149 -/
  | rdUsbctrl
  /-- WR_USBCTRL, R150 -/
  | wrUsbctrl (v : Word)
  /-- RD_EP_OUT_ENABLE, R151 -/
  | rdEpOutEnable
  /-- WR_EP_OUT_ENABLE, R152 -/
  | wrEpOutEnable (v : Word)
  /-- RD_EP_IN_ENABLE, R153 -/
  | rdEpInEnable
  /-- WR_EP_IN_ENABLE, R154 -/
  | wrEpInEnable (v : Word)
  /-- RD_USBSTAT, R155 -/
  | rdUsbstat
  /-- WR_USBSTAT, R156 -/
  | wrUsbstat (v : Word)
  /-- RD_AVOUTBUFFER, R157 -/
  | rdAvoutbuffer
  /-- WR_AVOUTBUFFER, R158 -/
  | wrAvoutbuffer (v : Word)
  /-- RD_AVSETUPBUFFER, R159 -/
  | rdAvsetupbuffer
  /-- WR_AVSETUPBUFFER, R160 -/
  | wrAvsetupbuffer (v : Word)
  /-- RD_RXFIFO, R161 -/
  | rdRxfifo
  /-- WR_RXFIFO, R162 -/
  | wrRxfifo (v : Word)
  /-- RD_RXENABLE_SETUP, R163 -/
  | rdRxenableSetup
  /-- WR_RXENABLE_SETUP, R164 -/
  | wrRxenableSetup (v : Word)
  /-- RD_RXENABLE_OUT, R165 -/
  | rdRxenableOut
  /-- WR_RXENABLE_OUT, R166 -/
  | wrRxenableOut (v : Word)
  /-- RD_SET_NAK_OUT, R167 -/
  | rdSetNakOut
  /-- WR_SET_NAK_OUT, R168 -/
  | wrSetNakOut (v : Word)
  /-- RD_IN_SENT, R169 -/
  | rdInSent
  /-- WR_IN_SENT, R170 -/
  | wrInSent (v : Word)
  /-- RD_OUT_STALL, R171 -/
  | rdOutStall
  /-- WR_OUT_STALL, R172 -/
  | wrOutStall (v : Word)
  /-- RD_IN_STALL, R173 -/
  | rdInStall
  /-- WR_IN_STALL, R174 -/
  | wrInStall (v : Word)
  /-- RD_CONFIGIN0, R175 -/
  | rdConfigin0
  /-- WR_CONFIGIN0, R176 -/
  | wrConfigin0 (v : Word)
  /-- RD_CONFIGIN1, R175 -/
  | rdConfigin1
  /-- WR_CONFIGIN1, R176 -/
  | wrConfigin1 (v : Word)
  /-- RD_CONFIGIN2, R175 -/
  | rdConfigin2
  /-- WR_CONFIGIN2, R176 -/
  | wrConfigin2 (v : Word)
  /-- RD_CONFIGIN3, R175 -/
  | rdConfigin3
  /-- WR_CONFIGIN3, R176 -/
  | wrConfigin3 (v : Word)
  /-- RD_CONFIGIN4, R175 -/
  | rdConfigin4
  /-- WR_CONFIGIN4, R176 -/
  | wrConfigin4 (v : Word)
  /-- RD_CONFIGIN5, R175 -/
  | rdConfigin5
  /-- WR_CONFIGIN5, R176 -/
  | wrConfigin5 (v : Word)
  /-- RD_CONFIGIN6, R175 -/
  | rdConfigin6
  /-- WR_CONFIGIN6, R176 -/
  | wrConfigin6 (v : Word)
  /-- RD_CONFIGIN7, R175 -/
  | rdConfigin7
  /-- WR_CONFIGIN7, R176 -/
  | wrConfigin7 (v : Word)
  /-- RD_CONFIGIN8, R175 -/
  | rdConfigin8
  /-- WR_CONFIGIN8, R176 -/
  | wrConfigin8 (v : Word)
  /-- RD_CONFIGIN9, R175 -/
  | rdConfigin9
  /-- WR_CONFIGIN9, R176 -/
  | wrConfigin9 (v : Word)
  /-- RD_CONFIGIN10, R175 -/
  | rdConfigin10
  /-- WR_CONFIGIN10, R176 -/
  | wrConfigin10 (v : Word)
  /-- RD_CONFIGIN11, R175 -/
  | rdConfigin11
  /-- WR_CONFIGIN11, R176 -/
  | wrConfigin11 (v : Word)
  /-- RD_OUT_ISO, R177 -/
  | rdOutIso
  /-- WR_OUT_ISO, R178 -/
  | wrOutIso (v : Word)
  /-- RD_IN_ISO, R179 -/
  | rdInIso
  /-- WR_IN_ISO, R180 -/
  | wrInIso (v : Word)
  /-- RD_OUT_DATA_TOGGLE, R181 -/
  | rdOutDataToggle
  /-- WR_OUT_DATA_TOGGLE, R182 -/
  | wrOutDataToggle (v : Word)
  /-- RD_IN_DATA_TOGGLE, R183 -/
  | rdInDataToggle
  /-- WR_IN_DATA_TOGGLE, R184 -/
  | wrInDataToggle (v : Word)
  /-- RD_PHY_PINS_SENSE, R185 -/
  | rdPhyPinsSense
  /-- WR_PHY_PINS_SENSE, R186 -/
  | wrPhyPinsSense (v : Word)
  /-- RD_PHY_PINS_DRIVE, R187 -/
  | rdPhyPinsDrive
  /-- WR_PHY_PINS_DRIVE, R188 -/
  | wrPhyPinsDrive (v : Word)
  /-- RD_PHY_CONFIG, R189 -/
  | rdPhyConfig
  /-- WR_PHY_CONFIG, R190 -/
  | wrPhyConfig (v : Word)
  /-- RD.BUF, R191 -/
  | rdBuf (b : BufId) (k : WordIx)
  /-- WR.BUF, R192 -/
  | wrBuf (b : BufId) (k : WordIx) (v : Word)
  /-- WR.BUF.B, R193 -/
  | wrBufB (b : BufId) (j : ByteIx) (v : Word)
  /-- WR.BUF.H, R194 -/
  | wrBufH (b : BufId) (h : Fin 32) (v : Word)
  /-- RD_UNMAPPED_0x090-0x09C, R195 -/
  | rdUnmapped090 (k : Fin 4)
  /-- WR_UNMAPPED_0x090-0x09C, R195 -/
  | wrUnmapped090 (k : Fin 4) (v : Word)
  /-- RD_UNMAPPED_0x0A0-0x0BC, R195 -/
  | rdUnmapped0A0 (k : Fin 8)
  /-- WR_UNMAPPED_0x0A0-0x0BC, R195 -/
  | wrUnmapped0A0 (k : Fin 8) (v : Word)
  /-- RD_UNMAPPED_0x0C0-0x0FC, R195 -/
  | rdUnmapped0C0 (k : Fin 16)
  /-- WR_UNMAPPED_0x0C0-0x0FC, R195 -/
  | wrUnmapped0C0 (k : Fin 16) (v : Word)
  /-- RD_UNMAPPED_0x100-0x1FC, R195 -/
  | rdUnmapped100 (k : Fin 64)
  /-- WR_UNMAPPED_0x100-0x1FC, R195 -/
  | wrUnmapped100 (k : Fin 64) (v : Word)
  /-- RD_UNMAPPED_0x200-0x3FC, R195 -/
  | rdUnmapped200 (k : Fin 128)
  /-- WR_UNMAPPED_0x200-0x3FC, R195 -/
  | wrUnmapped200 (k : Fin 128) (v : Word)
  /-- RD_UNMAPPED_0x400-0x7FC, R195 -/
  | rdUnmapped400 (k : Fin 256)
  /-- WR_UNMAPPED_0x400-0x7FC, R195 -/
  | wrUnmapped400 (k : Fin 256) (v : Word)
  /-- init, R243 -/
  | init
  /-- configure_out_endpoint, R220 -/
  | configureOutEndpoint (ep enabled setup iso : Nat)
  /-- configure_in_endpoint, R221 -/
  | configureInEndpoint (ep enabled iso : Nat)
  /-- set_ep_stalling, R222 -/
  | setEpStalling (ep stalling : Nat)
  /-- set_device_address, R223 -/
  | setDeviceAddress (address : Nat)
  /-- connect, R240 -/
  | connect
  /-- disconnect, R241 -/
  | disconnect
  /-- connected, R242 -/
  | connected
  /-- supply_buffers, R200 -/
  | supplyBuffers (bitmap : Nat)
  /-- send_packet, R260 -/
  | sendPacket (buf ep data size : Nat)
  /-- packet_collected, R262 -/
  | packetCollected
  /-- recv_packet, R264 -/
  | recvPacket (data : Nat)
  /-- transfer_to_device, R290 -/
  | transferToDevice (buf data size : Nat)
  /-- transfer_from_device, R291 -/
  | transferFromDevice (buf data size : Nat)
  /-- interrupt_enable, R244 -/
  | interruptEnable (mask : Nat)
  /-- interrupt_disable, R245 -/
  | interruptDisable (mask : Nat)
  deriving DecidableEq, Repr

end Sys2Proof
end

