-- ==== Sys2Proof/WellFormed.lean ====
section
/-! DEFINITION. Which terms of `Instr` are well formed: every operand of an operation fits the width R116 gives it. The
fields of a transaction fit by their types. -/

namespace Sys2Proof

/-- An operand of R116 written `u8` fits. -/
abbrev Fits.u8 (n : Nat) : Prop := n < 256

/-- An operand of R116 written `bool` is 0 or 1. -/
abbrev Fits.bool (n : Nat) : Prop := n < 2

/-- An operand of R116 written `u32` or `addr` fits. -/
abbrev Fits.u32 (n : Nat) : Prop := n < 4294967296

/-- The operand widths of R116. -/
def Instr.wellFormed : Instr → Bool
  | .rdIntrState => true
  | .wrIntrState _ => true
  | .rdIntrEnable => true
  | .wrIntrEnable _ => true
  | .rdIntrTest => true
  | .wrIntrTest _ => true
  | .rdAlertTest => true
  | .wrAlertTest _ => true
  | .rdUsbctrl => true
  | .wrUsbctrl _ => true
  | .rdEpOutEnable => true
  | .wrEpOutEnable _ => true
  | .rdEpInEnable => true
  | .wrEpInEnable _ => true
  | .rdUsbstat => true
  | .wrUsbstat _ => true
  | .rdAvoutbuffer => true
  | .wrAvoutbuffer _ => true
  | .rdAvsetupbuffer => true
  | .wrAvsetupbuffer _ => true
  | .rdRxfifo => true
  | .wrRxfifo _ => true
  | .rdRxenableSetup => true
  | .wrRxenableSetup _ => true
  | .rdRxenableOut => true
  | .wrRxenableOut _ => true
  | .rdSetNakOut => true
  | .wrSetNakOut _ => true
  | .rdInSent => true
  | .wrInSent _ => true
  | .rdOutStall => true
  | .wrOutStall _ => true
  | .rdInStall => true
  | .wrInStall _ => true
  | .rdConfigin0 => true
  | .wrConfigin0 _ => true
  | .rdConfigin1 => true
  | .wrConfigin1 _ => true
  | .rdConfigin2 => true
  | .wrConfigin2 _ => true
  | .rdConfigin3 => true
  | .wrConfigin3 _ => true
  | .rdConfigin4 => true
  | .wrConfigin4 _ => true
  | .rdConfigin5 => true
  | .wrConfigin5 _ => true
  | .rdConfigin6 => true
  | .wrConfigin6 _ => true
  | .rdConfigin7 => true
  | .wrConfigin7 _ => true
  | .rdConfigin8 => true
  | .wrConfigin8 _ => true
  | .rdConfigin9 => true
  | .wrConfigin9 _ => true
  | .rdConfigin10 => true
  | .wrConfigin10 _ => true
  | .rdConfigin11 => true
  | .wrConfigin11 _ => true
  | .rdOutIso => true
  | .wrOutIso _ => true
  | .rdInIso => true
  | .wrInIso _ => true
  | .rdOutDataToggle => true
  | .wrOutDataToggle _ => true
  | .rdInDataToggle => true
  | .wrInDataToggle _ => true
  | .rdPhyPinsSense => true
  | .wrPhyPinsSense _ => true
  | .rdPhyPinsDrive => true
  | .wrPhyPinsDrive _ => true
  | .rdPhyConfig => true
  | .wrPhyConfig _ => true
  | .rdBuf _ _ => true
  | .wrBuf _ _ _ => true
  | .wrBufB _ _ _ => true
  | .wrBufH _ _ _ => true
  | .rdUnmapped090 _ => true
  | .wrUnmapped090 _ _ => true
  | .rdUnmapped0A0 _ => true
  | .wrUnmapped0A0 _ _ => true
  | .rdUnmapped0C0 _ => true
  | .wrUnmapped0C0 _ _ => true
  | .rdUnmapped100 _ => true
  | .wrUnmapped100 _ _ => true
  | .rdUnmapped200 _ => true
  | .wrUnmapped200 _ _ => true
  | .rdUnmapped400 _ => true
  | .wrUnmapped400 _ _ => true
  | .init => true
  | .configureOutEndpoint ep enabled setup iso => decide (Fits.u8 ep ∧ Fits.bool enabled ∧ Fits.bool setup ∧ Fits.bool iso)
  | .configureInEndpoint ep enabled iso => decide (Fits.u8 ep ∧ Fits.bool enabled ∧ Fits.bool iso)
  | .setEpStalling ep stalling => decide (Fits.u8 ep ∧ Fits.bool stalling)
  | .setDeviceAddress address => decide (Fits.u8 address)
  | .connect => true
  | .disconnect => true
  | .connected => true
  | .supplyBuffers bitmap => decide (Fits.u32 bitmap)
  | .sendPacket buf ep data size => decide (Fits.u8 buf ∧ Fits.u8 ep ∧ Fits.u32 data ∧ Fits.u8 size)
  | .packetCollected => true
  | .recvPacket data => decide (Fits.u32 data)
  | .transferToDevice buf data size => decide (Fits.u8 buf ∧ Fits.u32 data ∧ Fits.u8 size)
  | .transferFromDevice buf data size => decide (Fits.u8 buf ∧ Fits.u32 data ∧ Fits.u8 size)
  | .interruptEnable mask => decide (Fits.u32 mask)
  | .interruptDisable mask => decide (Fits.u32 mask)

end Sys2Proof
end

