-- ==== Sys2Proof/Decode.lean ====
section
/-! DEFINITION. The decoder of commands (spec/30_encoding.md R110 to R119), total on any command and rejecting by name,
and the encoder, written from the formats of R111 and R115 and the offsets of R113. Both take the parameters, which
say where the registers and the buffers lie in the window (R8); the words of spec/opcode_table.json are those at the
defaults. -/

namespace Sys2Proof

/-- Why a command is no instruction. -/
inductive DecodeError where
  /-- reserved descriptor bits set, or SZ = 3 (R112, R119) -/
  | illegalDescriptor
  /-- the offset is not aligned to the access's width (R84, R112) -/
  | misalignedDeviceAccess
  /-- a byte or halfword access other than a write to buffer memory (R85, R112) -/
  | subWordAccess
  /-- an offset that holds neither a register nor a buffer, and for which the table has no row: none at the default
  layout (R195, log 12) -/
  | unmappedOffset
  deriving DecidableEq, Repr

/-- `n` bits of `d` from bit `lo` on, as a number (R11). -/
def bitField (d lo n : Nat) : Nat := d / 2 ^ lo % 2 ^ n

/-- The reads of the 36 registers, in the order of their offsets (R113): 0x000, 0x004, .. 0x08C at the default. -/
def registerReads : List Instr := [
    .rdIntrState, .rdIntrEnable, .rdIntrTest, .rdAlertTest, .rdUsbctrl,
    .rdEpOutEnable, .rdEpInEnable, .rdUsbstat, .rdAvoutbuffer, .rdAvsetupbuffer,
    .rdRxfifo, .rdRxenableSetup, .rdRxenableOut, .rdSetNakOut, .rdInSent,
    .rdOutStall, .rdInStall, .rdConfigin0, .rdConfigin1, .rdConfigin2,
    .rdConfigin3, .rdConfigin4, .rdConfigin5, .rdConfigin6, .rdConfigin7,
    .rdConfigin8, .rdConfigin9, .rdConfigin10, .rdConfigin11, .rdOutIso,
    .rdInIso, .rdOutDataToggle, .rdInDataToggle, .rdPhyPinsSense, .rdPhyPinsDrive,
    .rdPhyConfig]

/-- The writes of the 36 registers, in the order of their offsets (R113). -/
def registerWrites : List (Word → Instr) := [
    .wrIntrState, .wrIntrEnable, .wrIntrTest, .wrAlertTest, .wrUsbctrl,
    .wrEpOutEnable, .wrEpInEnable, .wrUsbstat, .wrAvoutbuffer, .wrAvsetupbuffer,
    .wrRxfifo, .wrRxenableSetup, .wrRxenableOut, .wrSetNakOut, .wrInSent,
    .wrOutStall, .wrInStall, .wrConfigin0, .wrConfigin1, .wrConfigin2,
    .wrConfigin3, .wrConfigin4, .wrConfigin5, .wrConfigin6, .wrConfigin7,
    .wrConfigin8, .wrConfigin9, .wrConfigin10, .wrConfigin11, .wrOutIso,
    .wrInIso, .wrOutDataToggle, .wrInDataToggle, .wrPhyPinsSense, .wrPhyPinsDrive,
    .wrPhyConfig]

/-- The row of a word read of an unmapped offset, 0x090 to 0x7FC (R195). -/
def unmappedRead (off : Nat) : Instr :=
  if off < 0xA0 then .rdUnmapped090 (.ofNat 4 ((off - 0x090) / 4))
  else if off < 0xC0 then .rdUnmapped0A0 (.ofNat 8 ((off - 0x0A0) / 4))
  else if off < 0x100 then .rdUnmapped0C0 (.ofNat 16 ((off - 0x0C0) / 4))
  else if off < 0x200 then .rdUnmapped100 (.ofNat 64 ((off - 0x100) / 4))
  else if off < 0x400 then .rdUnmapped200 (.ofNat 128 ((off - 0x200) / 4))
  else .rdUnmapped400 (.ofNat 256 ((off - 0x400) / 4))

/-- The row of a word write to an unmapped offset, 0x090 to 0x7FC (R195). -/
def unmappedWrite (off : Nat) (v : Word) : Instr :=
  if off < 0xA0 then .wrUnmapped090 (.ofNat 4 ((off - 0x090) / 4)) v
  else if off < 0xC0 then .wrUnmapped0A0 (.ofNat 8 ((off - 0x0A0) / 4)) v
  else if off < 0x100 then .wrUnmapped0C0 (.ofNat 16 ((off - 0x0C0) / 4)) v
  else if off < 0x200 then .wrUnmapped100 (.ofNat 64 ((off - 0x100) / 4)) v
  else if off < 0x400 then .wrUnmapped200 (.ofNat 128 ((off - 0x200) / 4)) v
  else .wrUnmapped400 (.ofNat 256 ((off - 0x400) / 4)) v

/-- The access to the k-th register of R113; none past the last one. -/
def registerAccess (write : Bool) (k : Nat) (v : Word) : Option Instr :=
  if write then (registerWrites[k]?).map (· v) else registerReads[k]?

/-- The word access at byte `j` of packet buffer memory (R191, R192). -/
def bufferAccess (write : Bool) (j : Nat) (v : Word) : Instr :=
  let b : BufId := .ofNat 32 (j / 64)
  let k : WordIx := .ofNat 16 (j / 4)
  if write then .wrBuf b k v else .rdBuf b k

/-- The word access at an offset that holds neither a register nor a buffer: its row of the table, which has rows for
0x090 to 0x7FC, the unmapped offsets of the default layout (R195). -/
def unmappedAccess (write : Bool) (off : Nat) (v : Word) : Except DecodeError Instr :=
  if 0x090 ≤ off ∧ off < 0x800 then .ok (if write then unmappedWrite off v else unmappedRead off)
  else .error .unmappedOffset

/-- A word access at an aligned offset of the window (R80, R113, R191, R195). -/
def wordAccess (p : Params) (write : Bool) (off : Nat) (v : Word) : Except DecodeError Instr :=
  if p.InBuffers off then .ok (bufferAccess write (off - p.bufBase) v)
  else
    match if p.regBase ≤ off then registerAccess write ((off - p.regBase) / 4) v else none with
    | some i => .ok i
    | none => unmappedAccess write off v

/-- A sub-word write at or after the start of packet buffer memory (R193, R194). -/
def subWordWrite (p : Params) (half : Bool) (off : Nat) (v : Word) : Except DecodeError Instr :=
  let j := off - p.bufBase
  if ¬ p.InBuffers off then .error .unmappedOffset
  else if half then .ok (.wrBufH (.ofNat 32 (j / 64)) (.ofNat 32 (j / 2)) v)
  else .ok (.wrBufB (.ofNat 32 (j / 64)) (.ofNat 64 j) v)

/-- A transaction descriptor (R111, R112; the checks in the order of R112). -/
def decodeTransaction (p : Params) (d : Nat) (v : Word) : Except DecodeError Instr :=
  let off := bitField d 0 12
  let write := bitField d 12 1 = 1
  let sz := bitField d 13 2
  if bitField d 15 17 ≠ 0 then .error .illegalDescriptor
  else if sz = 3 then .error .illegalDescriptor
  else if sz = 2 ∧ off % 4 ≠ 0 then .error .misalignedDeviceAccess
  else if sz < 2 ∧ ¬ (write ∧ p.bufBase ≤ off) then .error .subWordAccess
  else if sz = 1 ∧ off % 2 ≠ 0 then .error .misalignedDeviceAccess
  else if sz = 2 then wordAccess p (decide write) off v
  else subWordWrite p (decide (sz = 1)) off v

/-- The operation of each operation code (R116, R117), its operands read from their slots. -/
def operationOf (x : Slots) : Nat → Instr
  | 0 => .init
  | 1 => .configureOutEndpoint x.x0 x.x1 x.x2 x.x3
  | 2 => .configureInEndpoint x.x0 x.x1 x.x2
  | 3 => .setEpStalling x.x0 x.x1
  | 4 => .setDeviceAddress x.x0
  | 5 => .connect
  | 6 => .disconnect
  | 7 => .connected
  | 8 => .supplyBuffers x.x0
  | 9 => .sendPacket x.x0 x.x1 x.x2 x.x3
  | 10 => .packetCollected
  | 11 => .recvPacket x.x0
  | 12 => .transferToDevice x.x0 x.x1 x.x2
  | 13 => .transferFromDevice x.x0 x.x1 x.x2
  | 14 => .interruptEnable x.x0
  | _ => .interruptDisable x.x0

/-- An operation descriptor (R115, R119). -/
def decodeOperation (d : Nat) (x : Slots) : Except DecodeError Instr :=
  if bitField d 28 3 ≠ 0 ∨ bitField d 0 24 ≠ 0 then .error .illegalDescriptor
  else .ok (operationOf x (bitField d 24 4))

/-- The decoder: bit 31 selects the format (R110). -/
def decode (p : Params) (c : Cmd) : Except DecodeError Instr :=
  if bitField c.desc.toNat 31 1 = 1 then decodeOperation c.desc.toNat c.x
  else decodeTransaction p c.desc.toNat c.data

/-- The command of a word read of an offset: `0x4000 | off` (R111). -/
def readTd (off : Nat) : Cmd := { desc := BitVec.ofNat 32 (0x4000 + off) }

/-- The command of a word write of an offset: `0x5000 | off` (R111). -/
def writeTd (off : Nat) (v : Word) : Cmd := { desc := BitVec.ofNat 32 (0x5000 + off), data := v }

/-- The encoder: the command of an instruction at a layout. The registers are at the offsets of R113 from the first
one; what the instruction does not use beside its descriptor is 0. -/
def encode (p : Params) : Instr → Cmd
  | .rdIntrState => readTd (p.regOffset 0x000)
  | .wrIntrState v => writeTd (p.regOffset 0x000) v
  | .rdIntrEnable => readTd (p.regOffset 0x004)
  | .wrIntrEnable v => writeTd (p.regOffset 0x004) v
  | .rdIntrTest => readTd (p.regOffset 0x008)
  | .wrIntrTest v => writeTd (p.regOffset 0x008) v
  | .rdAlertTest => readTd (p.regOffset 0x00C)
  | .wrAlertTest v => writeTd (p.regOffset 0x00C) v
  | .rdUsbctrl => readTd (p.regOffset 0x010)
  | .wrUsbctrl v => writeTd (p.regOffset 0x010) v
  | .rdEpOutEnable => readTd (p.regOffset 0x014)
  | .wrEpOutEnable v => writeTd (p.regOffset 0x014) v
  | .rdEpInEnable => readTd (p.regOffset 0x018)
  | .wrEpInEnable v => writeTd (p.regOffset 0x018) v
  | .rdUsbstat => readTd (p.regOffset 0x01C)
  | .wrUsbstat v => writeTd (p.regOffset 0x01C) v
  | .rdAvoutbuffer => readTd (p.regOffset 0x020)
  | .wrAvoutbuffer v => writeTd (p.regOffset 0x020) v
  | .rdAvsetupbuffer => readTd (p.regOffset 0x024)
  | .wrAvsetupbuffer v => writeTd (p.regOffset 0x024) v
  | .rdRxfifo => readTd (p.regOffset 0x028)
  | .wrRxfifo v => writeTd (p.regOffset 0x028) v
  | .rdRxenableSetup => readTd (p.regOffset 0x02C)
  | .wrRxenableSetup v => writeTd (p.regOffset 0x02C) v
  | .rdRxenableOut => readTd (p.regOffset 0x030)
  | .wrRxenableOut v => writeTd (p.regOffset 0x030) v
  | .rdSetNakOut => readTd (p.regOffset 0x034)
  | .wrSetNakOut v => writeTd (p.regOffset 0x034) v
  | .rdInSent => readTd (p.regOffset 0x038)
  | .wrInSent v => writeTd (p.regOffset 0x038) v
  | .rdOutStall => readTd (p.regOffset 0x03C)
  | .wrOutStall v => writeTd (p.regOffset 0x03C) v
  | .rdInStall => readTd (p.regOffset 0x040)
  | .wrInStall v => writeTd (p.regOffset 0x040) v
  | .rdConfigin0 => readTd (p.regOffset 0x044)
  | .wrConfigin0 v => writeTd (p.regOffset 0x044) v
  | .rdConfigin1 => readTd (p.regOffset 0x048)
  | .wrConfigin1 v => writeTd (p.regOffset 0x048) v
  | .rdConfigin2 => readTd (p.regOffset 0x04C)
  | .wrConfigin2 v => writeTd (p.regOffset 0x04C) v
  | .rdConfigin3 => readTd (p.regOffset 0x050)
  | .wrConfigin3 v => writeTd (p.regOffset 0x050) v
  | .rdConfigin4 => readTd (p.regOffset 0x054)
  | .wrConfigin4 v => writeTd (p.regOffset 0x054) v
  | .rdConfigin5 => readTd (p.regOffset 0x058)
  | .wrConfigin5 v => writeTd (p.regOffset 0x058) v
  | .rdConfigin6 => readTd (p.regOffset 0x05C)
  | .wrConfigin6 v => writeTd (p.regOffset 0x05C) v
  | .rdConfigin7 => readTd (p.regOffset 0x060)
  | .wrConfigin7 v => writeTd (p.regOffset 0x060) v
  | .rdConfigin8 => readTd (p.regOffset 0x064)
  | .wrConfigin8 v => writeTd (p.regOffset 0x064) v
  | .rdConfigin9 => readTd (p.regOffset 0x068)
  | .wrConfigin9 v => writeTd (p.regOffset 0x068) v
  | .rdConfigin10 => readTd (p.regOffset 0x06C)
  | .wrConfigin10 v => writeTd (p.regOffset 0x06C) v
  | .rdConfigin11 => readTd (p.regOffset 0x070)
  | .wrConfigin11 v => writeTd (p.regOffset 0x070) v
  | .rdOutIso => readTd (p.regOffset 0x074)
  | .wrOutIso v => writeTd (p.regOffset 0x074) v
  | .rdInIso => readTd (p.regOffset 0x078)
  | .wrInIso v => writeTd (p.regOffset 0x078) v
  | .rdOutDataToggle => readTd (p.regOffset 0x07C)
  | .wrOutDataToggle v => writeTd (p.regOffset 0x07C) v
  | .rdInDataToggle => readTd (p.regOffset 0x080)
  | .wrInDataToggle v => writeTd (p.regOffset 0x080) v
  | .rdPhyPinsSense => readTd (p.regOffset 0x084)
  | .wrPhyPinsSense v => writeTd (p.regOffset 0x084) v
  | .rdPhyPinsDrive => readTd (p.regOffset 0x088)
  | .wrPhyPinsDrive v => writeTd (p.regOffset 0x088) v
  | .rdPhyConfig => readTd (p.regOffset 0x08C)
  | .wrPhyConfig v => writeTd (p.regOffset 0x08C) v
  | .rdBuf b k => readTd (p.bufBase + 64 * b.val + 4 * k.val)
  | .wrBuf b k v => writeTd (p.bufBase + 64 * b.val + 4 * k.val) v
  | .wrBufB b j v => { desc := BitVec.ofNat 32 (0x1000 + (p.bufBase + 64 * b.val + j.val)), data := v }
  | .wrBufH b h v => { desc := BitVec.ofNat 32 (0x3000 + (p.bufBase + 64 * b.val + 2 * h.val)), data := v }
  | .rdUnmapped090 k => readTd (0x090 + 4 * k.val)
  | .wrUnmapped090 k v => writeTd (0x090 + 4 * k.val) v
  | .rdUnmapped0A0 k => readTd (0x0A0 + 4 * k.val)
  | .wrUnmapped0A0 k v => writeTd (0x0A0 + 4 * k.val) v
  | .rdUnmapped0C0 k => readTd (0x0C0 + 4 * k.val)
  | .wrUnmapped0C0 k v => writeTd (0x0C0 + 4 * k.val) v
  | .rdUnmapped100 k => readTd (0x100 + 4 * k.val)
  | .wrUnmapped100 k v => writeTd (0x100 + 4 * k.val) v
  | .rdUnmapped200 k => readTd (0x200 + 4 * k.val)
  | .wrUnmapped200 k v => writeTd (0x200 + 4 * k.val) v
  | .rdUnmapped400 k => readTd (0x400 + 4 * k.val)
  | .wrUnmapped400 k v => writeTd (0x400 + 4 * k.val) v
  | .init => { desc := 0x80000000#32 }
  | .configureOutEndpoint ep enabled setup iso => { desc := 0x81000000#32, x := { x0 := ep, x1 := enabled, x2 := setup, x3 := iso } }
  | .configureInEndpoint ep enabled iso => { desc := 0x82000000#32, x := { x0 := ep, x1 := enabled, x2 := iso } }
  | .setEpStalling ep stalling => { desc := 0x83000000#32, x := { x0 := ep, x1 := stalling } }
  | .setDeviceAddress address => { desc := 0x84000000#32, x := { x0 := address } }
  | .connect => { desc := 0x85000000#32 }
  | .disconnect => { desc := 0x86000000#32 }
  | .connected => { desc := 0x87000000#32 }
  | .supplyBuffers bitmap => { desc := 0x88000000#32, x := { x0 := bitmap } }
  | .sendPacket buf ep data size => { desc := 0x89000000#32, x := { x0 := buf, x1 := ep, x2 := data, x3 := size } }
  | .packetCollected => { desc := 0x8A000000#32 }
  | .recvPacket data => { desc := 0x8B000000#32, x := { x0 := data } }
  | .transferToDevice buf data size => { desc := 0x8C000000#32, x := { x0 := buf, x1 := data, x2 := size } }
  | .transferFromDevice buf data size => { desc := 0x8D000000#32, x := { x0 := buf, x1 := data, x2 := size } }
  | .interruptEnable mask => { desc := 0x8E000000#32, x := { x0 := mask } }
  | .interruptDisable mask => { desc := 0x8F000000#32, x := { x0 := mask } }

/-- The offset an unmapped row of the table stands for. -/
def Instr.unmappedOffset : Instr → Option Nat
  | .rdUnmapped090 k | .wrUnmapped090 k _ => some (0x090 + 4 * k.val)
  | .rdUnmapped0A0 k | .wrUnmapped0A0 k _ => some (0x0A0 + 4 * k.val)
  | .rdUnmapped0C0 k | .wrUnmapped0C0 k _ => some (0x0C0 + 4 * k.val)
  | .rdUnmapped100 k | .wrUnmapped100 k _ => some (0x100 + 4 * k.val)
  | .rdUnmapped200 k | .wrUnmapped200 k _ => some (0x200 + 4 * k.val)
  | .rdUnmapped400 k | .wrUnmapped400 k _ => some (0x400 + 4 * k.val)
  | _ => none

/-- The instruction has a command at this layout: an unmapped row only where its offset is unmapped there. -/
abbrev Instr.Placed (p : Params) (i : Instr) : Prop :=
  ∀ off ∈ i.unmappedOffset, ¬ p.InRegisters off ∧ ¬ p.InBuffers off

/-- The command of a bare descriptor word: zeros beside it. -/
def tableCommand (w : Nat) : Cmd := { desc := BitVec.ofNat 32 w }

/-- The instruction the decoder reads, at the default layout, from a table word of `nbits` bits, every bit above them 0.
Every descriptor is one 32-bit word (R110, R120): a wider word is none. -/
def decodeTableWord (nbits w : Nat) : Option Instr :=
  if nbits ≤ 32 ∧ w < 4294967296 then
    match decode .default (tableCommand w) with
    | .ok i => some i
    | .error _ => none
  else none

end Sys2Proof
end

