-- ==== Sys2Proof/Machine/State.lean ====
section
/-! DEFINITION. The state of the machine (spec/10_state.md), the reasons a run stops (spec/60_exceptions.md R345), and
the state after reset (spec/70_reset_and_hazards.md R380). -/

namespace Sys2Proof.Machine

/-- Who owns a packet buffer (R60). -/
inductive Owner where
  | sw | hw
  deriving DecidableEq, Repr

/-- An entry of the receive FIFO (R52), its fields as wide as RXFIFO has them (R33). -/
structure RxEntry where
  buf : BufId
  size : BitVec 7
  setup : Bool
  ep : BitVec 4
  deriving DecidableEq, Repr

/-- An entry of TXLOG (R63): what the host was sent. -/
structure TxEntry where
  ep : EpId
  bytes : List Byte
  acked : Bool
  deriving DecidableEq, Repr

/-- The reasons FAULTS holds (R345). -/
inductive FaultReason where
  | doubleHandoff | availableOverflow | ownershipViolation | uncollectedCompletion | argumentRange
  | misalignedMemory | hardwareInvariant
  deriving DecidableEq, Repr

/-- The kinds of bus event of `LINK_EVENT` (R319). -/
inductive EventKind where
  | disconnected | powered | hostLost | linkReset | linkSuspend | linkResume | linkInError | linkOutError
  | receiveCrcError | receivePidError | receiveBitstuffError
  deriving DecidableEq, Repr

/-- The sources a `LINK_LEVEL` step may set (R321). -/
inductive LevelSource where
  | packetReceived | packetSent | availableOutEmpty | availableSetupEmpty | receiveFull
  deriving DecidableEq, Repr

/-- The steps of the link engine with all their draws (46_link_engine.md). A received packet of n bytes is given by
`n` and the 64 bytes its buffer holds afterwards: bytes 0..n-1 are the packet P, bytes n..63 the draws of D38 (log 18). -/
inductive DevStep where
  /-- R310 (draws of R315 and R316: `cancel`, `outToggle`, `inToggle`) -/
  | rxSetup (ep : EpId) (n : Fin 65) (image : Vector Byte 64) (cancel outToggle inToggle : Bool)
  /-- R311 -/
  | rxOut (ep : EpId) (n : Fin 65) (image : Vector Byte 64) (outToggle : Bool)
  /-- R313 -/
  | inStart (ep : EpId) (pending : Bool)
  /-- R314 -/
  | inComplete (ep : EpId) (pending inToggle : Bool)
  /-- R318 -/
  | inFail (ep : EpId) (err pending : Bool)
  /-- R319 -/
  | event (kind : EventKind) (ls : BitVec 3)
  /-- R320 -/
  | sof (f : BitVec 11)
  /-- R321 -/
  | level (src : LevelSource)
  deriving DecidableEq, Repr

/-- The program counter of `SW` (R21). -/
structure Pc where
  /-- the index of the current command in the caller's list -/
  op : Nat
  /-- the number of transactions the current command has performed -/
  t : Nat
  deriving DecidableEq, Repr

/-- The whole state. A register is a 32-bit word as a transaction sees it. -/
structure State where
  /-- the parameters (R8); no step changes them -/
  params : Params
  /-- the caller's list of commands (R21, R124), each with its data word and operand slots beside it -/
  prog : List Cmd
  /-- R21 -/
  pc : Pc
  /-- the result slots of the latest command (R20, R116); a slot past the end of the list holds no value -/
  results : List Word
  /-- the caller's memory `MEM` (R64, R81) -/
  mem : List Host.Cell
  /-- R23 -/
  intrState : Word
  /-- R24 -/
  intrEnable : Word
  /-- R27 -/
  usbctrl : Word
  /-- R28 -/
  epOutEnable : Word
  /-- R29 -/
  epInEnable : Word
  /-- USBSTAT.Frame (R30) -/
  frame : BitVec 11
  /-- USBSTAT.HostLost (R30) -/
  hostLost : Bool
  /-- USBSTAT.LinkState (R30) -/
  linkState : BitVec 3
  /-- USBSTAT.Sense (R30) -/
  sense : Bool
  /-- R34 -/
  rxEnableSetup : Word
  /-- R35 -/
  rxEnableOut : Word
  /-- R36 -/
  setNakOut : Word
  /-- R37 -/
  inSent : Word
  /-- R38 -/
  outStall : Word
  /-- R39 -/
  inStall : Word
  /-- CONFIGIN[0..11] (R40) -/
  configIn : Vector Word 12
  /-- R41 -/
  outIso : Word
  /-- R42 -/
  inIso : Word
  /-- OUT_DATA_TOGGLE (R43, R55) -/
  outToggle : Word
  /-- IN_DATA_TOGGLE (R44, R55) -/
  inToggle : Word
  /-- R46 -/
  phyPinsDrive : Word
  /-- R47 -/
  phyConfig : Word
  /-- AVOUT, head first (R50) -/
  avOut : List BufId
  /-- AVSETUP, head first (R51) -/
  avSetup : List BufId
  /-- RX, head first (R52) -/
  rx : List RxEntry
  /-- BUFMEM (R53) -/
  bufMem : Vector (Vector Byte 64) 32
  /-- OWNER (R60) -/
  owner : Vector Owner 32
  /-- INOWN (R60) -/
  inOwn : Vector (Option BufId) 12
  /-- FAULTS (R62), without repeats -/
  faults : List FaultReason
  /-- REFUSED (R62) -/
  refused : Bool
  /-- TXLOG, oldest first (R63) -/
  txLog : List TxEntry
  /-- the MODEL's own: the `DEV` steps of the coming interleaving points, one list for each point (log 2) -/
  sched : List (List DevStep)
  /-- the MODEL's own: the number of draws `SW`'s accesses have taken (log 8) -/
  draws : Nat
  deriving DecidableEq, Repr

/-- Why a run stops with a fault. Each constructor carries the stopped state: the verdict is recorded in its FAULTS
(R62), and every effect that came before it stands in it (log 3). All are safe: the run ends. The first seven are the
verdicts of R345; the last three mean that no step exists. -/
inductive Fault where
  /-- a hardware-owned buffer is handed to hardware again: WR AVOUTBUFFER, WR AVSETUPBUFFER, WR CONFIGIN (R158, R160,
  R176). Safe. -/
  | doubleHandoff (stopped : State)
  /-- a write to a full availability FIFO: WR AVOUTBUFFER, WR AVSETUPBUFFER (R158, R160). Safe. -/
  | availableOverflow (stopped : State)
  /-- software touches a hardware-owned buffer: RD.BUF, WR.BUF (R191, R192). Safe. -/
  | ownershipViolation (stopped : State)
  /-- CONFIGIN written before the endpoint's previous completion was read: WR CONFIGIN (R176). Safe. -/
  | uncollectedCompletion (stopped : State)
  /-- buf >= 32, ep >= 12 or size > 64: WR CONFIGIN, send_packet, the copies (R176, R260, R290, R291). Safe. -/
  | argumentRange (stopped : State)
  /-- a copy whose data address is not word-aligned (R290, R291). Safe. -/
  | misalignedMemory (stopped : State)
  /-- recv_packet meets an RX entry no `DEV` step produces (R264). Safe. -/
  | hardwareInvariant (stopped : State)
  /-- stuck: a `MEM` access outside the caller's memory, by the copies (R81, R345). Nothing is recorded. Safe. -/
  | outsideMemory (stopped : State)
  /-- stuck: a state with a fault recorded or REFUSED set never steps, by the step function (R140, R325). Safe. -/
  | halted (stopped : State)
  /-- stuck: the run of `SW` is over and no `DEV` step is due, by the step function (R21, R396). Safe. -/
  | runEnded (stopped : State)
  deriving DecidableEq, Repr

/-- Why a run stops with no meaning for the access (R345). Each of the spec's refusals carries the stopped state, in
which REFUSED is set (R62, log 3). All are safe: the run ends. -/
inductive Refusal where
  /-- an instruction that has no meaning yet, by exec. Safe. -/
  | notModelled (mnemonic : String)
  /-- no descriptor: the decoder (R112, R119). Safe. -/
  | illegalDescriptor (stopped : State)
  /-- an offset not aligned to the access's width: the decoder (R84, R112). Safe. -/
  | misalignedDeviceAccess (stopped : State)
  /-- a byte or halfword access that is not a write to buffer memory: the decoder (R85, R112). Safe. -/
  | subWordAccess (stopped : State)
  /-- an offset that holds neither a register nor a buffer: the unmapped rows, and, at another layout than the default,
  the decoder (R195, log 12). Safe. -/
  | unmappedOffset (stopped : State)
  /-- WR USBSTAT, WR RXFIFO, WR PHY_PINS_SENSE (R156, R162, R186). Safe. -/
  | writeToReadOnly (stopped : State)
  /-- RD AVOUTBUFFER, RD AVSETUPBUFFER (R157, R159). Safe. -/
  | readOfWriteOnly (stopped : State)
  /-- a write that sets a bit whose effect no source gives (R148, R150, R168, R182, R184, R188, R190). Safe. -/
  | unknownFieldWrite (stopped : State)
  /-- WR CONFIGIN while the endpoint is Ready or Sending (R176). Safe. -/
  | inTransferBusy (stopped : State)
  /-- an operand that does not fit its width: the operations (R116). Safe. -/
  | badOperand (stopped : State)
  deriving DecidableEq, Repr

/-- The state after reset (R380). The draws of R380 are the free constants of Config (log 9); the fields that are the
model's own or the caller's start empty (log 2, 4, 6, 8, 15). -/
def State.reset : State where
  params := .default
  prog := []
  pc := ⟨0, 0⟩
  results := []
  mem := []
  intrState := 0#32
  intrEnable := 0#32
  usbctrl := 0#32
  epOutEnable := 0#32
  epInEnable := 0#32
  frame := 0#11
  hostLost := false
  linkState := 0#3
  sense := Config.resetSense
  rxEnableSetup := 0#32
  rxEnableOut := 0#32
  setNakOut := 0#32
  inSent := 0#32
  outStall := 0#32
  inStall := 0#32
  configIn := Vector.replicate 12 0#32
  outIso := 0#32
  inIso := 0#32
  outToggle := 0#32
  inToggle := 0#32
  phyPinsDrive := 0#32
  phyConfig := Config.resetPhyHigh.setWidth 32 <<< 1
  avOut := []
  avSetup := []
  rx := []
  bufMem := Vector.ofFn fun b => Vector.ofFn fun j => Config.resetBufByte (64 * b.val + j.val)
  owner := Vector.replicate 32 .sw
  inOwn := Vector.replicate 12 none
  faults := []
  refused := false
  txLog := []
  sched := []
  draws := 0

end Sys2Proof.Machine
end

