-- ==== Sys2Proof/Machine/Operands.lean ====
section
/-! DEFINITION. Operand forms and field assembly (spec/30_encoding.md R114, R116, R118, R125) and the one byte order
(spec/20_memory.md R82). Every field is unsigned and zero-extended. -/

namespace Sys2Proof.Machine

/-- An operand written `u8` in R116 fits. -/
def fitsU8 (n : Nat) : Bool := decide (n < 256)

/-- An operand written `bool` in R116 is 0 or 1. -/
def fitsBool (n : Nat) : Bool := decide (n < 2)

/-- An operand written `u32` or `addr` in R116 fits. -/
def fitsU32 (n : Nat) : Bool := decide (n < 4294967296)

/-- A Boolean as a register bit or a result value. -/
def flag (b : Bool) : Word := if b then 1#32 else 0#32

/-- `bit(e)`, the bit of endpoint or buffer e in a bitmap (R118). -/
def bit (e : Nat) : Word := 1#32 <<< e

/-- The implemented bits of the interrupt registers (R23, R24). -/
def intrMask : Word := 0x3FFFF#32

/-- The implemented bits of a per-endpoint bitmap (R114). -/
def epMask : Word := 0xFFF#32

/-- The bits of USBCTRL that hold a value: Enable and DeviceAddress (R27). -/
def usbctrlMask : Word := 0x007F0001#32

/-- The DeviceAddress field of USBCTRL (R114). -/
def addressMask : Word := 0x007F0000#32

/-- The implemented bits of CONFIGIN (R40). -/
def configInMask : Word := 0xE0007F1F#32

/-- The bits of CONFIGIN a write stores: BufferId, Size, Ready (R176). -/
def configInWriteMask : Word := 0x80007F1F#32

/-- BufferId, bits 4:0 of AVOUTBUFFER, AVSETUPBUFFER, RXFIFO and CONFIGIN (R114). -/
def bufIdOf (v : Word) : BufId := .ofNat 32 v.toNat

/-- Size, bits 14:8 of RXFIFO and CONFIGIN (R114). -/
def sizeField (v : Word) : BitVec 7 := v.extractLsb' 8 7

/-- `configin(buf, size, r)` (R118). -/
def configInWord (buf size : Nat) (ready : Bool) : Word :=
  BitVec.ofNat 32 (buf % 32) ||| (BitVec.ofNat 32 (size % 128) <<< 8) ||| (flag ready <<< 31)

/-- RXFIFO's layout of an entry (R33, R161). -/
def rxWord (e : RxEntry) : Word :=
  BitVec.ofNat 32 e.buf.val ||| (e.size.setWidth 32 <<< 8) ||| (flag e.setup <<< 19) ||| (e.ep.setWidth 32 <<< 20)

/-- `rx_decode` (R118). -/
def rxDecode (w : Word) : RxEntry where
  buf := bufIdOf w
  size := sizeField w
  setup := w.getLsbD 19
  ep := w.extractLsb' 20 4

/-- `usbctrl_addr(v, a)` (R118). -/
def usbctrlAddr (v : Word) (a : Nat) : Word := (v &&& ~~~addressMask) ||| (BitVec.ofNat 32 (a % 128) <<< 16)

/-- `avail(b)`, the data word of the availability ports (R118). -/
def availWord (b : Nat) : Word := BitVec.ofNat 32 (b % 32)

/-- `buf_off(b, k)`, the window offset of a buffer word (R118). -/
def bufOff (p : Params) (b : BufId) (k : WordIx) : Nat := p.bufBase + 64 * b.val + 4 * k.val

/-- The word of four bytes, lowest byte first (R82). -/
def wordOfBytes (b0 b1 b2 b3 : Byte) : Word :=
  b0.setWidth 32 ||| (b1.setWidth 32 <<< 8) ||| (b2.setWidth 32 <<< 16) ||| (b3.setWidth 32 <<< 24)

/-- Byte j of a word, `v[8j+7:8j]` (R82, R125). -/
def byteOfWord (w : Word) (j : Nat) : Byte := w.extractLsb' (8 * j) 8

/-- The word that packs at most three trailing bytes, lowest byte first, with padding bytes 0 (R290). -/
def packTail (bytes : List Byte) : Word :=
  wordOfBytes (bytes.getD 0 0#8) (bytes.getD 1 0#8) (bytes.getD 2 0#8) (bytes.getD 3 0#8)

/-- Byte `4k + i` of a buffer, for i < 4. -/
def byteIx (k : WordIx) (i : Fin 4) : ByteIx := ⟨4 * k.val + i.val, by omega⟩

end Sys2Proof.Machine
end

