-- ==== Sys2Proof/Machine/Flags.lean ====
section
/-! DEFINITION. The status flags (spec/10_state.md R65): USBSTAT's fields, CONFIGIN's Ready, Sending and Pending, the
interrupt bits and the interrupt line (R56), and the verdict flags (R62). -/

namespace Sys2Proof.Machine

/-- USBCTRL.Enable (R27). -/
def State.enabled (s : State) : Bool := s.usbctrl.getLsbD 0

/-- Bit e of a per-endpoint bitmap (R114). -/
def epBit (w : Word) (e : EpId) : Bool := w.getLsbD e.val

/-- A per-endpoint bitmap with bit e set to `on`, the other bits as before. -/
def setEpBit (w : Word) (e : EpId) (on : Bool) : Word := (w &&& ~~~(bit e.val)) ||| (if on then bit e.val else 0#32)

/-- CONFIGIN[e].Ready (R40). -/
def readyBit (c : Word) : Bool := c.getLsbD 31

/-- CONFIGIN[e].Pending (R40). -/
def pendingBit (c : Word) : Bool := c.getLsbD 30

/-- CONFIGIN[e].Sending (R40). -/
def sendingBit (c : Word) : Bool := c.getLsbD 29

/-- CONFIGIN with its three flags replaced, BufferId and Size as before. -/
def withInFlags (c : Word) (ready pending sending : Bool) : Word :=
  (c &&& 0x1FFFFFFF#32) ||| (flag ready <<< 31) ||| (flag pending <<< 30) ||| (flag sending <<< 29)

/-- USBSTAT.AvailableOutFull (R30). -/
def State.avOutFull (s : State) : Bool := decide (s.avOut.length = s.params.avOutCap)

/-- USBSTAT.AvailableSetupFull (R30). -/
def State.avSetupFull (s : State) : Bool := decide (s.avSetup.length = s.params.avSetupCap)

/-- USBSTAT.ReceiveEmpty (R30). -/
def State.rxEmpty (s : State) : Bool := decide (s.rx.length = 0)

/-- The value a read of USBSTAT returns (R155). -/
def State.usbstat (s : State) : Word :=
  s.frame.setWidth 32 ||| (flag s.hostLost <<< 11) ||| (s.linkState.setWidth 32 <<< 12) ||| (flag s.sense <<< 15)
    ||| (BitVec.ofNat 32 s.avOut.length <<< 16) ||| (BitVec.ofNat 32 s.avSetup.length <<< 20)
    ||| (flag s.avOutFull <<< 23) ||| (BitVec.ofNat 32 s.rx.length <<< 24)
    ||| (flag s.avSetupFull <<< 30) ||| (flag s.rxEmpty <<< 31)

/-- The interrupt line (R56). -/
def State.irq (s : State) : Bool := decide ((s.intrState &&& s.intrEnable) &&& intrMask ≠ 0#32)

/-- A source is pending (R342). -/
def State.isPending (s : State) (src : IntrSource) : Bool := s.intrState.getLsbD (s.params.bitOf src).val

/-- `INTR_STATE[INTR_BIT(src)] <- 1` (R342). -/
def State.setIntr (src : IntrSource) (s : State) : State :=
  { s with intrState := s.intrState ||| bit (s.params.bitOf src).val }

/-- `setIntr` when a condition holds. -/
def State.setIntrIf (c : Bool) (src : IntrSource) (s : State) : State := if c then s.setIntr src else s

/-- A fault is recorded or REFUSED is set: no agent steps (R140, R325, R345). -/
def State.isHalted (s : State) : Bool := s.refused || !s.faults.isEmpty

end Sys2Proof.Machine
end

