-- ==== Sys2Proof/Machine/Memory.lean ====
section
/-! DEFINITION. The caller's ordinary memory `MEM` (spec/20_memory.md R81, R82, R86): a list of cells in one canonical
form, addresses strictly rising, no cell equal to what an unlisted address reads as; little-endian words. -/

namespace Sys2Proof.Machine

/-- DESIGN CHOICE: what a byte of `MEM` that nothing has written reads as (log 15). Unsafe. -/
def Memory.unlisted : Byte := 0#8

/-- The byte at an address. -/
def Memory.get : List Host.Cell → Nat → Byte
  | [], _ => Memory.unlisted
  | (a, v) :: rest, addr => if addr = a then v else Memory.get rest addr

/-- A cell list's head with a byte in front: an unlisted value takes no cell. -/
def Memory.cons (addr : Nat) (v : Byte) (rest : List Host.Cell) : List Host.Cell :=
  if v = Memory.unlisted then rest else (addr, v) :: rest

/-- The memory with one byte stored. -/
def Memory.set : List Host.Cell → Nat → Byte → List Host.Cell
  | [], addr, v => Memory.cons addr v []
  | (a, w) :: rest, addr, v =>
    if addr < a then Memory.cons addr v ((a, w) :: rest)
    else if addr = a then Memory.cons addr v rest
    else (a, w) :: Memory.set rest addr v

/-- The canonical form. -/
def Memory.wf : List Host.Cell → Bool
  | [] => true
  | (a, v) :: rest => v != Memory.unlisted && rest.all (fun c => decide (a < c.1)) && Memory.wf rest

/-- A byte address lies in the caller's memory: below 2^32 and in a region of it (R81, R123). -/
def inMemory (p : Params) (addr : Nat) : Bool :=
  decide (addr < 4294967296) && p.callerMem.any fun r => decide (r.base ≤ addr ∧ addr < r.base + r.size)

/-- The n bytes from an address on all lie in the caller's memory. -/
def spanInMemory (p : Params) (addr n : Nat) : Bool := (List.range n).all fun i => inMemory p (addr + i)

/-- `MEM[addr]`. -/
def State.memByte (s : State) (addr : Nat) : Byte := Memory.get s.mem addr

/-- `MemRead(addr, 4)` where the access lies in the caller's memory (R13, R82). -/
def State.memWord (s : State) (addr : Nat) : Word :=
  wordOfBytes (s.memByte addr) (s.memByte (addr + 1)) (s.memByte (addr + 2)) (s.memByte (addr + 3))

/-- `MEM` with the bytes of a list stored from an address on, in ascending order. -/
def storeBytes (mem : List Host.Cell) (addr : Nat) : List Byte → List Host.Cell
  | [] => mem
  | v :: vs => storeBytes (Memory.set mem addr v) (addr + 1) vs

/-- The first n bytes of a word, lowest first (R82). -/
def wordBytes (w : Word) (n : Nat) : List Byte := (List.range n).map (byteOfWord w)

end Sys2Proof.Machine
end

