-- ==== Sys2Proof/Machine/Ops.lean ====
section
/-! DEFINITION. The shared operations: sequencing, the verdicts (spec/60_exceptions.md R345: the spec's only
"exception", with no return from it, R346 and R347), buffer ownership (spec/10_state.md R60), the draws of `SW`, and
accesses to `MEM` that may be stuck (spec/20_memory.md R81). -/

namespace Sys2Proof.Machine

/-- Run `f` on the next state; a stop stays a stop. -/
def andThen {α β : Type} (o : Host.Outcome α Fault Refusal) (f : α → Host.Outcome β Fault Refusal) :
    Host.Outcome β Fault Refusal :=
  match o with
  | .next a => f a
  | .fault r => .fault r
  | .refused r => .refused r

/-- The fault of a reason, with the stopped state. -/
def Fault.ofReason : FaultReason → State → Fault
  | .doubleHandoff => .doubleHandoff
  | .availableOverflow => .availableOverflow
  | .ownershipViolation => .ownershipViolation
  | .uncollectedCompletion => .uncollectedCompletion
  | .argumentRange => .argumentRange
  | .misalignedMemory => .misalignedMemory
  | .hardwareInvariant => .hardwareInvariant

/-- FAULTS with a reason added: a set (R62). -/
def addFault (r : FaultReason) (fs : List FaultReason) : List FaultReason := if r ∈ fs then fs else fs ++ [r]

/-- `raise Fault(reason)` (R13, R345): the reason is recorded in FAULTS and the run stops. -/
def raise {α : Type} (r : FaultReason) (s : State) : Host.Outcome α Fault Refusal :=
  .fault (Fault.ofReason r { s with faults := addFault r s.faults })

/-- `refuse(reason)` (R13, R345): REFUSED is set and the run stops. -/
def refuse {α : Type} (reason : State → Refusal) (s : State) : Host.Outcome α Fault Refusal :=
  .refused (reason { s with refused := true })

/-- A `MEM` access outside the caller's memory has no step (R81, R345). -/
def stuck {α : Type} (s : State) : Host.Outcome α Fault Refusal := .fault (.outsideMemory s)

/-- `pc.t <- pc.t + 1`, after a transaction (R21, R140). -/
def State.tick (s : State) : State := { s with pc := { s.pc with t := s.pc.t + 1 } }

/-- The result slots written (R20, R116). -/
def State.give (s : State) (results : List Word) : State := { s with results := results }

/-- The assignment that hands a buffer to hardware (R60). -/
def State.handOff (b : BufId) (s : State) : State := { s with owner := s.owner.set b.val .hw }

/-- The completion that gives a buffer back to software (R60). -/
def State.takeBack (b : BufId) (s : State) : State := { s with owner := s.owner.set b.val .sw }

/-- OWNER[b] (R60). -/
def State.ownerOf (s : State) (b : BufId) : Owner := s.owner[b]

/-- INOWN[e] (R60). -/
def State.inOwnOf (s : State) (e : EpId) : Option BufId := s.inOwn[e]

/-- CONFIGIN[e] (R40). -/
def State.configOf (s : State) (e : EpId) : Word := s.configIn[e]

/-- CONFIGIN[e] replaced. -/
def State.setConfig (e : EpId) (c : Word) (s : State) : State := { s with configIn := s.configIn.set e.val c }

/-- INOWN[e] replaced. -/
def State.setInOwn (e : EpId) (o : Option BufId) (s : State) : State := { s with inOwn := s.inOwn.set e.val o }

/-- BUFMEM[b][j] (R53). -/
def State.bufByte (s : State) (b : BufId) (j : ByteIx) : Byte := (s.bufMem[b])[j]

/-- Buffer b replaced whole. -/
def State.setBuffer (b : BufId) (image : Vector Byte 64) (s : State) : State :=
  { s with bufMem := s.bufMem.set b.val image }

/-- Word k of buffer b, little-endian (R82, R191). -/
def State.bufWord (s : State) (b : BufId) (k : WordIx) : Word :=
  wordOfBytes (s.bufByte b (byteIx k 0)) (s.bufByte b (byteIx k 1)) (s.bufByte b (byteIx k 2)) (s.bufByte b (byteIx k 3))

/-- A buffer with word k stored, little-endian (R82, R192). -/
def putWord (image : Vector Byte 64) (k : WordIx) (v : Word) : Vector Byte 64 :=
  (((image.set (byteIx k 0).val (byteOfWord v 0)).set (byteIx k 1).val (byteOfWord v 1)).set
    (byteIx k 2).val (byteOfWord v 2)).set (byteIx k 3).val (byteOfWord v 3)

/-- FREE: the next draw of a word by a `SW` read (log 8). -/
def drawWord (s : State) : Word × State := (Config.freeWord s.draws, { s with draws := s.draws + 1 })

/-- FREE: the next draw of a Bool by a `SW` write (log 8). -/
def drawBool (s : State) : Bool × State := (Config.freeBool s.draws, { s with draws := s.draws + 1 })

/-- `MemRead(addr, 4)` (R13, R86): stuck unless all four bytes lie in the caller's memory. -/
def memRead4 (addr : Nat) (s : State) : Host.Outcome Word Fault Refusal :=
  if spanInMemory s.params addr 4 then .next (s.memWord addr) else stuck s

/-- The bytes of `MemRead(addr + j, 1)` for j in 0..n-1 (R13, R290): stuck unless all lie in the caller's memory. -/
def memReadBytes (addr n : Nat) (s : State) : Host.Outcome (List Byte) Fault Refusal :=
  if spanInMemory s.params addr n then .next ((List.range n).map fun j => s.memByte (addr + j)) else stuck s

/-- `MemWrite(addr, 4, w)` (R13, R82, R86): stuck unless all four bytes lie in the caller's memory (log 27). -/
def memWrite4 (addr : Nat) (w : Word) (s : State) : Host.Outcome State Fault Refusal :=
  if spanInMemory s.params addr 4 then .next { s with mem := storeBytes s.mem addr (wordBytes w 4) } else stuck s

/-- `MemWrite(addr + j, 1, v_j)` for the bytes of a list in order (R13, R291), each stuck outside the caller's memory. -/
def memWriteBytes (addr : Nat) : List Byte → State → Host.Outcome State Fault Refusal
  | [], s => .next s
  | v :: vs, s =>
    if inMemory s.params addr then memWriteBytes (addr + 1) vs { s with mem := Memory.set s.mem addr v } else stuck s

end Sys2Proof.Machine
end

