-- ==== Sys2Proof/Machine/Link.lean ====
section
/-! DEFINITION. The link engine `DEV` (spec/46_link_engine.md R310 to R326): one function for each of its steps, `none`
where the step's guard fails, and the interleaving point between two transactions of `SW` (R325). -/

namespace Sys2Proof.Machine

/-- The source of an event kind (R319). -/
def EventKind.source : EventKind → IntrSource
  | .disconnected => .disconnected
  | .powered => .powered
  | .hostLost => .hostLost
  | .linkReset => .linkReset
  | .linkSuspend => .linkSuspend
  | .linkResume => .linkResume
  | .linkInError => .linkInError
  | .linkOutError => .linkOutError
  | .receiveCrcError => .receiveCrcError
  | .receivePidError => .receivePidError
  | .receiveBitstuffError => .receiveBitstuffError

/-- Which event kinds need Enable (R317, R319). -/
def EventKind.needsEnable : EventKind → Bool
  | .disconnected => false
  | .powered => false
  | .hostLost => true
  | .linkReset => true
  | .linkSuspend => true
  | .linkResume => true
  | .linkInError => true
  | .linkOutError => true
  | .receiveCrcError => true
  | .receivePidError => true
  | .receiveBitstuffError => true

/-- A received packet: the buffer's 64 bytes, its entry in RX, PacketReceived, and ReceiveFull when RX is now full
(R310, R311). -/
def receive (b : BufId) (n : Fin 65) (setup : Bool) (ep : EpId) (image : Vector Byte 64) (s : State) : State :=
  let entry : RxEntry := { buf := b, size := BitVec.ofNat 7 n.val, setup := setup, ep := BitVec.ofNat 4 ep.val }
  let s := { s.setBuffer b image with rx := s.rx ++ [entry] }
  (s.setIntr .packetReceived).setIntrIf (decide (s.rx.length = s.params.rxCap)) .receiveFull

/-- A SETUP clears the stalls of its endpoint when `SETUP_CLEARS_STALL` (R312). -/
def clearStalls (ep : EpId) (s : State) : State :=
  if s.params.setupClearsStall then
    { s with outStall := setEpBit s.outStall ep false, inStall := setEpBit s.inStall ep false }
  else s

/-- SETUP cancel of the endpoint's IN record, when the draw says so (R315). -/
def setupCancel (ep : EpId) (cancel : Bool) (s : State) : State :=
  let c := s.configOf ep
  if readyBit c && !sendingBit c && cancel then s.setConfig ep (withInFlags c false true false) else s

/-- `LINK_RX_SETUP` (R310). -/
def linkRxSetup (ep : EpId) (n : Fin 65) (image : Vector Byte 64) (cancel outToggle inToggle : Bool) (s : State) :
    Option State :=
  if s.enabled && epBit s.epOutEnable ep && epBit s.rxEnableSetup ep && decide (s.rx.length < s.params.rxCap) then
    match s.avSetup with
    | [] => none
    | b :: rest =>
      let s := receive b n true ep image { s with avSetup := rest }
      let s := s.setIntrIf rest.isEmpty .availableSetupEmpty
      let s := setupCancel ep cancel (clearStalls ep s)
      some { s with outToggle := setEpBit s.outToggle ep outToggle, inToggle := setEpBit s.inToggle ep inToggle }
  else none

/-- `LINK_RX_OUT` (R311). -/
def linkRxOut (ep : EpId) (n : Fin 65) (image : Vector Byte 64) (outToggle : Bool) (s : State) : Option State :=
  if s.enabled && epBit s.epOutEnable ep && epBit s.rxEnableOut ep && !epBit s.outStall ep
      && decide (s.rx.length < s.params.rxCap) then
    match s.avOut with
    | [] => none
    | b :: rest =>
      let s := receive b n false ep image { s with avOut := rest }
      let s := s.setIntrIf rest.isEmpty .availableOutEmpty
      some { s with outToggle := setEpBit s.outToggle ep outToggle }
  else none

/-- `LINK_IN_START` (R313). -/
def linkInStart (ep : EpId) (pending : Bool) (s : State) : Option State :=
  let c := s.configOf ep
  if s.enabled && epBit s.epInEnable ep && !epBit s.inStall ep && readyBit c && !sendingBit c then
    some (s.setConfig ep (withInFlags c (readyBit c) pending true))
  else none

/-- The packet endpoint `ep` sends: the first Size bytes of its buffer (R314, R318). -/
def inPacket (ep : EpId) (acked : Bool) (s : State) : TxEntry :=
  let c := s.configOf ep
  { ep := ep, bytes := (s.bufMem[bufIdOf c]).toList.take (sizeField c).toNat, acked := acked }

/-- `LINK_IN_COMPLETE` (R314). -/
def linkInComplete (ep : EpId) (pending inToggle : Bool) (s : State) : Option State :=
  let c := s.configOf ep
  if sendingBit c then
    let s := { s with txLog := s.txLog ++ [inPacket ep true s] }
    let s := s.setConfig ep (withInFlags c false pending false)
    let s := { s with inSent := setEpBit s.inSent ep true, inToggle := setEpBit s.inToggle ep inToggle }
    some (s.setIntr .packetSent)
  else none

/-- `LINK_IN_FAIL` (R318). -/
def linkInFail (ep : EpId) (err pending : Bool) (s : State) : Option State :=
  let c := s.configOf ep
  if sendingBit c && !epBit s.inIso ep then
    let s := { s with txLog := s.txLog ++ [inPacket ep false s] }
    let s := s.setConfig ep (withInFlags c (readyBit c) pending false)
    some (s.setIntrIf err .linkInError)
  else none

/-- The status fields an event changes beside LinkState (R319). -/
def eventStatus : EventKind → State → State
  | .disconnected, s => { s with sense := false }
  | .powered, s => { s with sense := true }
  | .hostLost, s => { s with hostLost := true }
  | .linkReset, s => s
  | .linkSuspend, s => s
  | .linkResume, s => s
  | .linkInError, s => s
  | .linkOutError, s => s
  | .receiveCrcError, s => s
  | .receivePidError, s => s
  | .receiveBitstuffError, s => s

/-- `LINK_EVENT` (R319). -/
def linkEvent (kind : EventKind) (ls : BitVec 3) (s : State) : Option State :=
  if kind.needsEnable && !s.enabled then none
  else some (eventStatus kind { s.setIntr kind.source with linkState := ls })

/-- `LINK_SOF` (R320). -/
def linkSof (f : BitVec 11) (s : State) : Option State :=
  if s.enabled then some ({ s with frame := f, hostLost := false }.setIntr .frameUpdated) else none

/-- The source a level step sets (R321). -/
def LevelSource.source : LevelSource → IntrSource
  | .packetReceived => .packetReceived
  | .packetSent => .packetSent
  | .availableOutEmpty => .availableOutEmpty
  | .availableSetupEmpty => .availableSetupEmpty
  | .receiveFull => .receiveFull

/-- The condition of a level step (R321). -/
def LevelSource.active (s : State) : LevelSource → Bool
  | .packetReceived => !s.rx.isEmpty
  | .packetSent => s.inSent != 0#32
  | .availableOutEmpty => s.avOut.isEmpty
  | .availableSetupEmpty => s.avSetup.isEmpty
  | .receiveFull => decide (s.rx.length = s.params.rxCap)

/-- `LINK_LEVEL` (R321). -/
def linkLevel (src : LevelSource) (s : State) : Option State :=
  if src.active s then some (s.setIntr src.source) else none

/-- A step of `DEV`, `none` where its guard fails. -/
def devEffect : DevStep → State → Option State
  | .rxSetup ep n image cancel outToggle inToggle, s => linkRxSetup ep n image cancel outToggle inToggle s
  | .rxOut ep n image outToggle, s => linkRxOut ep n image outToggle s
  | .inStart ep pending, s => linkInStart ep pending s
  | .inComplete ep pending inToggle, s => linkInComplete ep pending inToggle s
  | .inFail ep err pending, s => linkInFail ep err pending s
  | .event kind ls, s => linkEvent kind ls s
  | .sof f, s => linkSof f s
  | .level src, s => linkLevel src s

/-- A step of `DEV`: none is taken in a state with a fault recorded or REFUSED set (R325). -/
def devStep (d : DevStep) (s : State) : Option State := if s.isHalted then none else devEffect d s

/-- A scheduled step is taken where its guard holds and left out where it fails (R325, log 2). -/
def devTake (s : State) (d : DevStep) : State := (devStep d s).getD s

/-- The interleaving point before a transaction inside an operation (R10, R325): the steps scheduled for it, in order. -/
def devPoint (s : State) : State :=
  match s.sched with
  | [] => s
  | group :: rest => group.foldl devTake { s with sched := rest }

end Sys2Proof.Machine
end

