-- ==== Sys2Proof/Machine/Registers.lean ====
section
/-! DEFINITION. The rules of the register and buffer transactions (spec/40_register_access.md R141 to R195): what one
word read or word write of each register does, as one atomic step. -/

namespace Sys2Proof.Machine

/-- The registers of the block (R22, R113). -/
inductive Reg where
  | intrState | intrEnable | intrTest | alertTest | usbctrl | epOutEnable | epInEnable | usbstat | avOutBuffer
  | avSetupBuffer | rxFifo | rxEnableSetup | rxEnableOut | setNakOut | inSent | outStall | inStall
  | configIn (e : EpId)
  | outIso | inIso | outDataToggle | inDataToggle | phyPinsSense | phyPinsDrive | phyConfig
  deriving DecidableEq, Repr

/-- RD RXFIFO (R161): pops the head and gives its buffer back; a draw when RX is empty. -/
def readRxFifo (s : State) : Host.Outcome (Word × State) Fault Refusal :=
  match s.rx with
  | [] => .next (drawWord s)
  | e :: rest => .next (rxWord e, { s with rx := rest }.takeBack e.buf)

/-- The completion read of one endpoint: its buffer goes back to software once (R169). -/
def collect (sent : Word) (s : State) (e : EpId) : State :=
  if epBit sent e then
    match s.inOwnOf e with
    | some b => (s.takeBack b).setInOwn e none
    | none => s
  else s

/-- RD IN_SENT (R169). -/
def readInSent (s : State) : Host.Outcome (Word × State) Fault Refusal :=
  let sent := s.inSent &&& epMask
  .next (sent, (List.finRange 12).foldl (collect sent) s)

/-- WR AVOUTBUFFER (R158). -/
def writeAvOut (v : Word) (s : State) : Host.Outcome State Fault Refusal :=
  let b := bufIdOf v
  if s.ownerOf b = .hw then raise .doubleHandoff s
  else if s.avOut.length = s.params.avOutCap then
    raise .availableOverflow (s.setIntr .availableBufferOverflow)
  else .next ({ s with avOut := s.avOut ++ [b] }.handOff b)

/-- WR AVSETUPBUFFER (R160). -/
def writeAvSetup (v : Word) (s : State) : Host.Outcome State Fault Refusal :=
  let b := bufIdOf v
  if s.ownerOf b = .hw then raise .doubleHandoff s
  else if s.avSetup.length = s.params.avSetupCap then
    raise .availableOverflow (s.setIntr .availableBufferOverflow)
  else .next ({ s with avSetup := s.avSetup ++ [b] }.handOff b)

/-- The handoff a CONFIGIN write with Ready makes: the "assignment write" (R176). -/
def inHandOff (e : EpId) (v : Word) (s : State) : Host.Outcome State Fault Refusal :=
  let b := bufIdOf v
  if Config.maxPkt < (sizeField v).toNat then raise .argumentRange s
  else if s.ownerOf b = .hw then raise .doubleHandoff s
  else .next ((s.handOff b).setInOwn e (some b))

/-- The value CONFIGIN[e] takes from a write: Pending is kept, or is a draw when bit 30 is written 1 (R176). -/
def storeConfig (e : EpId) (v : Word) (s : State) : State :=
  let p := if pendingBit v then drawBool s else (pendingBit (s.configOf e), s)
  p.2.setConfig e ((v &&& configInWriteMask) ||| (flag p.1 <<< 30))

/-- WR CONFIGIN<e> (R176; the checks in the order of R343). -/
def writeConfigIn (e : EpId) (v : Word) (s : State) : Host.Outcome State Fault Refusal :=
  let c := s.configOf e
  if readyBit c || sendingBit c then refuse .inTransferBusy s
  else if (s.inOwnOf e).isSome then raise .uncollectedCompletion s
  else if readyBit v then andThen (inHandOff e v s) fun s => .next (storeConfig e v s)
  else .next (storeConfig e v s)

/-- A word read of a register, by its rule. -/
def regRead : Reg → State → Host.Outcome (Word × State) Fault Refusal
  | .intrState, s => .next (s.intrState &&& intrMask, s)
  | .intrEnable, s => .next (s.intrEnable &&& intrMask, s)
  | .intrTest, s => .next (0#32, s)
  | .alertTest, s => .next (0#32, s)
  | .usbctrl, s => .next (s.usbctrl &&& usbctrlMask, s)
  | .epOutEnable, s => .next (s.epOutEnable &&& epMask, s)
  | .epInEnable, s => .next (s.epInEnable &&& epMask, s)
  | .usbstat, s => .next (s.usbstat, s)
  | .avOutBuffer, s => refuse .readOfWriteOnly s
  | .avSetupBuffer, s => refuse .readOfWriteOnly s
  | .rxFifo, s => readRxFifo s
  | .rxEnableSetup, s => .next (s.rxEnableSetup &&& epMask, s)
  | .rxEnableOut, s => .next (s.rxEnableOut &&& epMask, s)
  | .setNakOut, s => .next (s.setNakOut &&& epMask, s)
  | .inSent, s => readInSent s
  | .outStall, s => .next (s.outStall &&& epMask, s)
  | .inStall, s => .next (s.inStall &&& epMask, s)
  | .configIn e, s => .next (s.configOf e &&& configInMask, s)
  | .outIso, s => .next (s.outIso &&& epMask, s)
  | .inIso, s => .next (s.inIso &&& epMask, s)
  | .outDataToggle, s => .next (s.outToggle &&& epMask, s)
  | .inDataToggle, s => .next (s.inToggle &&& epMask, s)
  | .phyPinsSense, s => .next (drawWord s)
  | .phyPinsDrive, s => .next (s.phyPinsDrive, s)
  | .phyConfig, s => .next (s.phyConfig, s)

/-- A word write of a register, by its rule. -/
def regWrite : Reg → Word → State → Host.Outcome State Fault Refusal
  | .intrState, v, s => .next { s with intrState := s.intrState &&& ~~~(v &&& intrMask) }
  | .intrEnable, v, s => .next { s with intrEnable := v &&& intrMask }
  | .intrTest, v, s => .next { s with intrState := s.intrState ||| (v &&& intrMask) }
  | .alertTest, v, s => if v ≠ 0#32 then refuse .unknownFieldWrite s else .next s
  | .usbctrl, v, s =>
    if v.getLsbD 1 then refuse .unknownFieldWrite s else .next { s with usbctrl := v &&& usbctrlMask }
  | .epOutEnable, v, s => .next { s with epOutEnable := v &&& epMask }
  | .epInEnable, v, s => .next { s with epInEnable := v &&& epMask }
  | .usbstat, _, s => refuse .writeToReadOnly s
  | .avOutBuffer, v, s => writeAvOut v s
  | .avSetupBuffer, v, s => writeAvSetup v s
  | .rxFifo, _, s => refuse .writeToReadOnly s
  | .rxEnableSetup, v, s => .next { s with rxEnableSetup := v &&& epMask }
  | .rxEnableOut, v, s => .next { s with rxEnableOut := v &&& epMask }
  | .setNakOut, v, s => if v &&& epMask ≠ 0#32 then refuse .unknownFieldWrite s else .next s
  | .inSent, v, s => .next { s with inSent := s.inSent &&& ~~~(v &&& epMask) }
  | .outStall, v, s => .next { s with outStall := v &&& epMask }
  | .inStall, v, s => .next { s with inStall := v &&& epMask }
  | .configIn e, v, s => writeConfigIn e v s
  | .outIso, v, s => .next { s with outIso := v &&& epMask }
  | .inIso, v, s => .next { s with inIso := v &&& epMask }
  | .outDataToggle, _, s => refuse .unknownFieldWrite s
  | .inDataToggle, _, s => refuse .unknownFieldWrite s
  | .phyPinsSense, _, s => refuse .writeToReadOnly s
  | .phyPinsDrive, v, s => if v ≠ 0#32 then refuse .unknownFieldWrite s else .next s
  | .phyConfig, v, s =>
    if v.extractLsb' 1 31 ≠ 0#31 then refuse .unknownFieldWrite s else .next { s with phyConfig := v }

/-- A word read of buffer memory (R191). -/
def bufRead (b : BufId) (k : WordIx) (s : State) : Host.Outcome (Word × State) Fault Refusal :=
  if s.ownerOf b = .hw then raise .ownershipViolation s else .next (s.bufWord b k, s)

/-- A word write of buffer memory (R192). -/
def bufWrite (b : BufId) (k : WordIx) (v : Word) (s : State) : Host.Outcome State Fault Refusal :=
  if s.ownerOf b = .hw then raise .ownershipViolation s else .next (s.setBuffer b (putWord s.bufMem[b] k v))

/-- A command that is one read transaction: its value is the command's result (R121, R140, log 5). -/
def readCommand (rule : State → Host.Outcome (Word × State) Fault Refusal) (s : State) :
    Host.Outcome State Fault Refusal :=
  andThen (rule s) fun p => .next (p.2.tick.give [p.1])

/-- A command that is one write transaction: it has no result (R140, log 5). -/
def writeCommand (rule : State → Host.Outcome State Fault Refusal) (s : State) : Host.Outcome State Fault Refusal :=
  andThen (rule s) fun s => .next (s.tick.give [])

/-- A read transaction inside an operation: the interleaving point, the rule, `pc.t` (R10, R140). -/
def busRead (rule : State → Host.Outcome (Word × State) Fault Refusal) (s : State) :
    Host.Outcome (Word × State) Fault Refusal :=
  andThen (rule (devPoint s)) fun p => .next (p.1, p.2.tick)

/-- A write transaction inside an operation: the interleaving point, the rule, `pc.t` (R10, R140). -/
def busWrite (rule : State → Host.Outcome State Fault Refusal) (s : State) : Host.Outcome State Fault Refusal :=
  andThen (rule (devPoint s)) fun s => .next s.tick

/-- `DevRead` of a register inside an operation (R13). -/
def devRead (r : Reg) : State → Host.Outcome (Word × State) Fault Refusal := busRead (regRead r)

/-- `DevWrite` of a register inside an operation (R13). -/
def devWrite (r : Reg) (v : Word) : State → Host.Outcome State Fault Refusal := busWrite (regWrite r v)

/-- The idiom `v <- RD r; WR r, f(v)` (R122): two transactions. -/
def modify (r : Reg) (f : Word → Word) (s : State) : Host.Outcome State Fault Refusal :=
  andThen (devRead r s) fun p => devWrite r (f p.1) p.2

/-- The idiom `SETCLR r, mask, on` (R122). -/
def setClr (r : Reg) (mask : Word) (on : Bool) : State → Host.Outcome State Fault Refusal :=
  modify r fun v => (v &&& ~~~mask) ||| (if on then mask else 0#32)

end Sys2Proof.Machine
end

