-- ==== Sys2Proof/Machine/BufferAccess.lean ====
section
/-! DEFINITION. The meanings of the packet buffer transactions (spec/40_register_access.md R191 to R194) and of the
unmapped offsets (R195). -/

namespace Sys2Proof.Machine

/-- RD.BUF (R191). -/
def execRdBuf (b : BufId) (k : WordIx) (s : State) : Host.Outcome State Fault Refusal := readCommand (bufRead b k) s

/-- WR.BUF (R192). -/
def execWrBuf (b : BufId) (k : WordIx) (v : Word) (s : State) : Host.Outcome State Fault Refusal :=
  writeCommand (bufWrite b k v) s

/-- WR.BUF.B (R193): "silently dropped by the hardware". -/
def execWrBufB (_b : BufId) (_j : ByteIx) (_v : Word) (s : State) : Host.Outcome State Fault Refusal :=
  writeCommand .next s

/-- WR.BUF.H (R194): dropped as a byte store is. -/
def execWrBufH (_b : BufId) (_h : Fin 32) (_v : Word) (s : State) : Host.Outcome State Fault Refusal :=
  writeCommand .next s

/-- RD_UNMAPPED_0x090-0x09C (R195). -/
def execRdUnmapped090 (_k : Fin 4) (s : State) : Host.Outcome State Fault Refusal := refuse .unmappedOffset s

/-- WR_UNMAPPED_0x090-0x09C (R195). -/
def execWrUnmapped090 (_k : Fin 4) (_v : Word) (s : State) : Host.Outcome State Fault Refusal := refuse .unmappedOffset s

/-- RD_UNMAPPED_0x0A0-0x0BC (R195). -/
def execRdUnmapped0A0 (_k : Fin 8) (s : State) : Host.Outcome State Fault Refusal := refuse .unmappedOffset s

/-- WR_UNMAPPED_0x0A0-0x0BC (R195). -/
def execWrUnmapped0A0 (_k : Fin 8) (_v : Word) (s : State) : Host.Outcome State Fault Refusal := refuse .unmappedOffset s

/-- RD_UNMAPPED_0x0C0-0x0FC (R195). -/
def execRdUnmapped0C0 (_k : Fin 16) (s : State) : Host.Outcome State Fault Refusal := refuse .unmappedOffset s

/-- WR_UNMAPPED_0x0C0-0x0FC (R195). -/
def execWrUnmapped0C0 (_k : Fin 16) (_v : Word) (s : State) : Host.Outcome State Fault Refusal := refuse .unmappedOffset s

/-- RD_UNMAPPED_0x100-0x1FC (R195). -/
def execRdUnmapped100 (_k : Fin 64) (s : State) : Host.Outcome State Fault Refusal := refuse .unmappedOffset s

/-- WR_UNMAPPED_0x100-0x1FC (R195). -/
def execWrUnmapped100 (_k : Fin 64) (_v : Word) (s : State) : Host.Outcome State Fault Refusal := refuse .unmappedOffset s

/-- RD_UNMAPPED_0x200-0x3FC (R195). -/
def execRdUnmapped200 (_k : Fin 128) (s : State) : Host.Outcome State Fault Refusal := refuse .unmappedOffset s

/-- WR_UNMAPPED_0x200-0x3FC (R195). -/
def execWrUnmapped200 (_k : Fin 128) (_v : Word) (s : State) : Host.Outcome State Fault Refusal := refuse .unmappedOffset s

/-- RD_UNMAPPED_0x400-0x7FC (R195). -/
def execRdUnmapped400 (_k : Fin 256) (s : State) : Host.Outcome State Fault Refusal := refuse .unmappedOffset s

/-- WR_UNMAPPED_0x400-0x7FC (R195). -/
def execWrUnmapped400 (_k : Fin 256) (_v : Word) (s : State) : Host.Outcome State Fault Refusal := refuse .unmappedOffset s

end Sys2Proof.Machine
end

