-- ==== Sys2Proof/Machine/BufferPool.lean ====
section
/-! DEFINITION. The buffer pool manager (spec/41_buffer_pool.md R200). -/

namespace Sys2Proof.Machine

/-- The scan of R200 over the buffer ids still to come, with the working bitmap. -/
def supplyScan : List Nat → Word → State → Host.Outcome (Word × State) Fault Refusal
  | [], bitmap, s => .next (bitmap, s)
  | i :: rest, bitmap, s =>
    if bitmap.getLsbD i then
      andThen (devRead .usbstat s) fun p =>
        if p.1.getLsbD 30 then
          andThen (devRead .usbstat p.2) fun q =>
            if q.1.getLsbD 23 then .next (bitmap, q.2)
            else andThen (devWrite .avOutBuffer (availWord i) q.2) (supplyScan rest (bitmap &&& ~~~(bit i)))
        else andThen (devWrite .avSetupBuffer (availWord i) p.2) (supplyScan rest (bitmap &&& ~~~(bit i)))
    else supplyScan rest bitmap s

/-- `supply_buffers` (R200). -/
def execSupplyBuffers (bitmap : Nat) (s : State) : Host.Outcome State Fault Refusal :=
  if fitsU32 bitmap then
    andThen (supplyScan (List.range 32) (BitVec.ofNat 32 bitmap) s) fun p => .next (p.2.give [p.1])
  else refuse .badOperand s

end Sys2Proof.Machine
end

