-- ==== Sys2Proof/Machine/EndpointConfig.lean ====
section
/-! DEFINITION. The endpoint configurator (spec/42_endpoint_config.md R220 to R223) and the status results (spec/
00_scope.md R14). -/

namespace Sys2Proof.Machine

/-- The status OK (R14). -/
def statusOk : Word := 0#32

/-- `return OK` (R14). -/
def returnOk (s : State) : Host.Outcome State Fault Refusal := .next (s.give [statusOk])

/-- `return FAIL` (R14): the other result slots hold no value (R262, R264, log 6). -/
def returnFail (s : State) : Host.Outcome State Fault Refusal := .next (s.give [s.params.statusFail])

/-- `configure_out_endpoint` (R220). -/
def execConfigureOutEndpoint (ep enabled setup iso : Nat) (s : State) : Host.Outcome State Fault Refusal :=
  if fitsU8 ep && fitsBool enabled && fitsBool setup && fitsBool iso then
    if 12 ≤ ep then returnFail s
    else
      andThen (setClr .epOutEnable (bit ep) (enabled = 1) s) fun s =>
      andThen (setClr .rxEnableSetup (bit ep) (setup = 1) s) fun s =>
      andThen (setClr .rxEnableOut (bit ep) (enabled = 1) s) fun s =>
      andThen (setClr .outIso (bit ep) (iso = 1) s) returnOk
  else refuse .badOperand s

/-- `configure_in_endpoint` (R221). -/
def execConfigureInEndpoint (ep enabled iso : Nat) (s : State) : Host.Outcome State Fault Refusal :=
  if fitsU8 ep && fitsBool enabled && fitsBool iso then
    if 12 ≤ ep then returnFail s
    else
      andThen (setClr .epInEnable (bit ep) (enabled = 1) s) fun s =>
      andThen (setClr .inIso (bit ep) (iso = 1) s) returnOk
  else refuse .badOperand s

/-- `set_ep_stalling` (R222). -/
def execSetEpStalling (ep stalling : Nat) (s : State) : Host.Outcome State Fault Refusal :=
  if fitsU8 ep && fitsBool stalling then
    if 12 ≤ ep then returnFail s
    else
      andThen (setClr .outStall (bit ep) (stalling = 1) s) fun s =>
      andThen (setClr .inStall (bit ep) (stalling = 1) s) returnOk
  else refuse .badOperand s

/-- `set_device_address` (R223). -/
def execSetDeviceAddress (address : Nat) (s : State) : Host.Outcome State Fault Refusal :=
  if fitsU8 address then
    if 128 ≤ address then returnFail s
    else andThen (modify .usbctrl (fun v => usbctrlAddr v address) s) returnOk
  else refuse .badOperand s

end Sys2Proof.Machine
end

