-- ==== Sys2Proof/Machine/Control.lean ====
section
/-! DEFINITION. Connection control, initialisation and interrupt enables (spec/43_control.md R240 to R245). -/

namespace Sys2Proof.Machine

/-- `connect` (R240). -/
def execConnect (s : State) : Host.Outcome State Fault Refusal :=
  andThen (modify .usbctrl (fun v => v ||| 1#32) s) fun s => .next (s.give [])

/-- `disconnect` (R241). -/
def execDisconnect (s : State) : Host.Outcome State Fault Refusal :=
  andThen (modify .usbctrl (fun v => v &&& ~~~(1#32)) s) fun s => .next (s.give [])

/-- `connected` (R242). -/
def execConnected (s : State) : Host.Outcome State Fault Refusal :=
  andThen (devRead .usbctrl s) fun p => .next (p.2.give [flag (p.1.getLsbD 0)])

/-- `init` (R243). -/
def execInit (s : State) : Host.Outcome State Fault Refusal := andThen (devWrite .phyConfig 1#32 s) returnOk

/-- `interrupt_enable` (R244). -/
def execInterruptEnable (mask : Nat) (s : State) : Host.Outcome State Fault Refusal :=
  if fitsU32 mask then
    andThen (modify .intrEnable (fun v => v ||| BitVec.ofNat 32 mask) s) fun s => .next (s.give [])
  else refuse .badOperand s

/-- `interrupt_disable` (R245). -/
def execInterruptDisable (mask : Nat) (s : State) : Host.Outcome State Fault Refusal :=
  if fitsU32 mask then
    andThen (modify .intrEnable (fun v => v &&& ~~~(BitVec.ofNat 32 mask)) s) fun s => .next (s.give [])
  else refuse .badOperand s

end Sys2Proof.Machine
end

