-- ==== Sys2Proof/Machine/RegisterAccess.lean ====
section
/-! DEFINITION. The meanings of the register transactions (spec/40_register_access.md R141 to R190), one definition for
each row of the opcode table over the rules of Machine/Registers.lean. -/

namespace Sys2Proof.Machine

/-- RD_INTR_STATE (R141). -/
def execRdIntrState (s : State) : Host.Outcome State Fault Refusal := readCommand (regRead .intrState) s

/-- WR_INTR_STATE (R142). -/
def execWrIntrState (v : Word) (s : State) : Host.Outcome State Fault Refusal := writeCommand (regWrite .intrState v) s

/-- RD_INTR_ENABLE (R143). -/
def execRdIntrEnable (s : State) : Host.Outcome State Fault Refusal := readCommand (regRead .intrEnable) s

/-- WR_INTR_ENABLE (R144). -/
def execWrIntrEnable (v : Word) (s : State) : Host.Outcome State Fault Refusal := writeCommand (regWrite .intrEnable v) s

/-- RD_INTR_TEST (R145). -/
def execRdIntrTest (s : State) : Host.Outcome State Fault Refusal := readCommand (regRead .intrTest) s

/-- WR_INTR_TEST (R146). -/
def execWrIntrTest (v : Word) (s : State) : Host.Outcome State Fault Refusal := writeCommand (regWrite .intrTest v) s

/-- RD_ALERT_TEST (R147). -/
def execRdAlertTest (s : State) : Host.Outcome State Fault Refusal := readCommand (regRead .alertTest) s

/-- WR_ALERT_TEST (R148). -/
def execWrAlertTest (v : Word) (s : State) : Host.Outcome State Fault Refusal := writeCommand (regWrite .alertTest v) s

/-- RD_USBCTRL (R149). -/
def execRdUsbctrl (s : State) : Host.Outcome State Fault Refusal := readCommand (regRead .usbctrl) s

/-- WR_USBCTRL (R150). -/
def execWrUsbctrl (v : Word) (s : State) : Host.Outcome State Fault Refusal := writeCommand (regWrite .usbctrl v) s

/-- RD_EP_OUT_ENABLE (R151). -/
def execRdEpOutEnable (s : State) : Host.Outcome State Fault Refusal := readCommand (regRead .epOutEnable) s

/-- WR_EP_OUT_ENABLE (R152). -/
def execWrEpOutEnable (v : Word) (s : State) : Host.Outcome State Fault Refusal := writeCommand (regWrite .epOutEnable v) s

/-- RD_EP_IN_ENABLE (R153). -/
def execRdEpInEnable (s : State) : Host.Outcome State Fault Refusal := readCommand (regRead .epInEnable) s

/-- WR_EP_IN_ENABLE (R154). -/
def execWrEpInEnable (v : Word) (s : State) : Host.Outcome State Fault Refusal := writeCommand (regWrite .epInEnable v) s

/-- RD_USBSTAT (R155). -/
def execRdUsbstat (s : State) : Host.Outcome State Fault Refusal := readCommand (regRead .usbstat) s

/-- WR_USBSTAT (R156). -/
def execWrUsbstat (v : Word) (s : State) : Host.Outcome State Fault Refusal := writeCommand (regWrite .usbstat v) s

/-- RD_AVOUTBUFFER (R157). -/
def execRdAvoutbuffer (s : State) : Host.Outcome State Fault Refusal := readCommand (regRead .avOutBuffer) s

/-- WR_AVOUTBUFFER (R158). -/
def execWrAvoutbuffer (v : Word) (s : State) : Host.Outcome State Fault Refusal := writeCommand (regWrite .avOutBuffer v) s

/-- RD_AVSETUPBUFFER (R159). -/
def execRdAvsetupbuffer (s : State) : Host.Outcome State Fault Refusal := readCommand (regRead .avSetupBuffer) s

/-- WR_AVSETUPBUFFER (R160). -/
def execWrAvsetupbuffer (v : Word) (s : State) : Host.Outcome State Fault Refusal := writeCommand (regWrite .avSetupBuffer v) s

/-- RD_RXFIFO (R161). -/
def execRdRxfifo (s : State) : Host.Outcome State Fault Refusal := readCommand (regRead .rxFifo) s

/-- WR_RXFIFO (R162). -/
def execWrRxfifo (v : Word) (s : State) : Host.Outcome State Fault Refusal := writeCommand (regWrite .rxFifo v) s

/-- RD_RXENABLE_SETUP (R163). -/
def execRdRxenableSetup (s : State) : Host.Outcome State Fault Refusal := readCommand (regRead .rxEnableSetup) s

/-- WR_RXENABLE_SETUP (R164). -/
def execWrRxenableSetup (v : Word) (s : State) : Host.Outcome State Fault Refusal := writeCommand (regWrite .rxEnableSetup v) s

/-- RD_RXENABLE_OUT (R165). -/
def execRdRxenableOut (s : State) : Host.Outcome State Fault Refusal := readCommand (regRead .rxEnableOut) s

/-- WR_RXENABLE_OUT (R166). -/
def execWrRxenableOut (v : Word) (s : State) : Host.Outcome State Fault Refusal := writeCommand (regWrite .rxEnableOut v) s

/-- RD_SET_NAK_OUT (R167). -/
def execRdSetNakOut (s : State) : Host.Outcome State Fault Refusal := readCommand (regRead .setNakOut) s

/-- WR_SET_NAK_OUT (R168). -/
def execWrSetNakOut (v : Word) (s : State) : Host.Outcome State Fault Refusal := writeCommand (regWrite .setNakOut v) s

/-- RD_IN_SENT (R169). -/
def execRdInSent (s : State) : Host.Outcome State Fault Refusal := readCommand (regRead .inSent) s

/-- WR_IN_SENT (R170). -/
def execWrInSent (v : Word) (s : State) : Host.Outcome State Fault Refusal := writeCommand (regWrite .inSent v) s

/-- RD_OUT_STALL (R171). -/
def execRdOutStall (s : State) : Host.Outcome State Fault Refusal := readCommand (regRead .outStall) s

/-- WR_OUT_STALL (R172). -/
def execWrOutStall (v : Word) (s : State) : Host.Outcome State Fault Refusal := writeCommand (regWrite .outStall v) s

/-- RD_IN_STALL (R173). -/
def execRdInStall (s : State) : Host.Outcome State Fault Refusal := readCommand (regRead .inStall) s

/-- WR_IN_STALL (R174). -/
def execWrInStall (v : Word) (s : State) : Host.Outcome State Fault Refusal := writeCommand (regWrite .inStall v) s

/-- RD_CONFIGIN0 (R175). -/
def execRdConfigin0 (s : State) : Host.Outcome State Fault Refusal := readCommand (regRead (.configIn 0)) s

/-- WR_CONFIGIN0 (R176). -/
def execWrConfigin0 (v : Word) (s : State) : Host.Outcome State Fault Refusal := writeCommand (regWrite (.configIn 0) v) s

/-- RD_CONFIGIN1 (R175). -/
def execRdConfigin1 (s : State) : Host.Outcome State Fault Refusal := readCommand (regRead (.configIn 1)) s

/-- WR_CONFIGIN1 (R176). -/
def execWrConfigin1 (v : Word) (s : State) : Host.Outcome State Fault Refusal := writeCommand (regWrite (.configIn 1) v) s

/-- RD_CONFIGIN2 (R175). -/
def execRdConfigin2 (s : State) : Host.Outcome State Fault Refusal := readCommand (regRead (.configIn 2)) s

/-- WR_CONFIGIN2 (R176). -/
def execWrConfigin2 (v : Word) (s : State) : Host.Outcome State Fault Refusal := writeCommand (regWrite (.configIn 2) v) s

/-- RD_CONFIGIN3 (R175). -/
def execRdConfigin3 (s : State) : Host.Outcome State Fault Refusal := readCommand (regRead (.configIn 3)) s

/-- WR_CONFIGIN3 (R176). -/
def execWrConfigin3 (v : Word) (s : State) : Host.Outcome State Fault Refusal := writeCommand (regWrite (.configIn 3) v) s

/-- RD_CONFIGIN4 (R175). -/
def execRdConfigin4 (s : State) : Host.Outcome State Fault Refusal := readCommand (regRead (.configIn 4)) s

/-- WR_CONFIGIN4 (R176). -/
def execWrConfigin4 (v : Word) (s : State) : Host.Outcome State Fault Refusal := writeCommand (regWrite (.configIn 4) v) s

/-- RD_CONFIGIN5 (R175). -/
def execRdConfigin5 (s : State) : Host.Outcome State Fault Refusal := readCommand (regRead (.configIn 5)) s

/-- WR_CONFIGIN5 (R176). -/
def execWrConfigin5 (v : Word) (s : State) : Host.Outcome State Fault Refusal := writeCommand (regWrite (.configIn 5) v) s

/-- RD_CONFIGIN6 (R175). -/
def execRdConfigin6 (s : State) : Host.Outcome State Fault Refusal := readCommand (regRead (.configIn 6)) s

/-- WR_CONFIGIN6 (R176). -/
def execWrConfigin6 (v : Word) (s : State) : Host.Outcome State Fault Refusal := writeCommand (regWrite (.configIn 6) v) s

/-- RD_CONFIGIN7 (R175). -/
def execRdConfigin7 (s : State) : Host.Outcome State Fault Refusal := readCommand (regRead (.configIn 7)) s

/-- WR_CONFIGIN7 (R176). -/
def execWrConfigin7 (v : Word) (s : State) : Host.Outcome State Fault Refusal := writeCommand (regWrite (.configIn 7) v) s

/-- RD_CONFIGIN8 (R175). -/
def execRdConfigin8 (s : State) : Host.Outcome State Fault Refusal := readCommand (regRead (.configIn 8)) s

/-- WR_CONFIGIN8 (R176). -/
def execWrConfigin8 (v : Word) (s : State) : Host.Outcome State Fault Refusal := writeCommand (regWrite (.configIn 8) v) s

/-- RD_CONFIGIN9 (R175). -/
def execRdConfigin9 (s : State) : Host.Outcome State Fault Refusal := readCommand (regRead (.configIn 9)) s

/-- WR_CONFIGIN9 (R176). -/
def execWrConfigin9 (v : Word) (s : State) : Host.Outcome State Fault Refusal := writeCommand (regWrite (.configIn 9) v) s

/-- RD_CONFIGIN10 (R175). -/
def execRdConfigin10 (s : State) : Host.Outcome State Fault Refusal := readCommand (regRead (.configIn 10)) s

/-- WR_CONFIGIN10 (R176). -/
def execWrConfigin10 (v : Word) (s : State) : Host.Outcome State Fault Refusal := writeCommand (regWrite (.configIn 10) v) s

/-- RD_CONFIGIN11 (R175). -/
def execRdConfigin11 (s : State) : Host.Outcome State Fault Refusal := readCommand (regRead (.configIn 11)) s

/-- WR_CONFIGIN11 (R176). -/
def execWrConfigin11 (v : Word) (s : State) : Host.Outcome State Fault Refusal := writeCommand (regWrite (.configIn 11) v) s

/-- RD_OUT_ISO (R177). -/
def execRdOutIso (s : State) : Host.Outcome State Fault Refusal := readCommand (regRead .outIso) s

/-- WR_OUT_ISO (R178). -/
def execWrOutIso (v : Word) (s : State) : Host.Outcome State Fault Refusal := writeCommand (regWrite .outIso v) s

/-- RD_IN_ISO (R179). -/
def execRdInIso (s : State) : Host.Outcome State Fault Refusal := readCommand (regRead .inIso) s

/-- WR_IN_ISO (R180). -/
def execWrInIso (v : Word) (s : State) : Host.Outcome State Fault Refusal := writeCommand (regWrite .inIso v) s

/-- RD_OUT_DATA_TOGGLE (R181). -/
def execRdOutDataToggle (s : State) : Host.Outcome State Fault Refusal := readCommand (regRead .outDataToggle) s

/-- WR_OUT_DATA_TOGGLE (R182). -/
def execWrOutDataToggle (v : Word) (s : State) : Host.Outcome State Fault Refusal := writeCommand (regWrite .outDataToggle v) s

/-- RD_IN_DATA_TOGGLE (R183). -/
def execRdInDataToggle (s : State) : Host.Outcome State Fault Refusal := readCommand (regRead .inDataToggle) s

/-- WR_IN_DATA_TOGGLE (R184). -/
def execWrInDataToggle (v : Word) (s : State) : Host.Outcome State Fault Refusal := writeCommand (regWrite .inDataToggle v) s

/-- RD_PHY_PINS_SENSE (R185). -/
def execRdPhyPinsSense (s : State) : Host.Outcome State Fault Refusal := readCommand (regRead .phyPinsSense) s

/-- WR_PHY_PINS_SENSE (R186). -/
def execWrPhyPinsSense (v : Word) (s : State) : Host.Outcome State Fault Refusal := writeCommand (regWrite .phyPinsSense v) s

/-- RD_PHY_PINS_DRIVE (R187). -/
def execRdPhyPinsDrive (s : State) : Host.Outcome State Fault Refusal := readCommand (regRead .phyPinsDrive) s

/-- WR_PHY_PINS_DRIVE (R188). -/
def execWrPhyPinsDrive (v : Word) (s : State) : Host.Outcome State Fault Refusal := writeCommand (regWrite .phyPinsDrive v) s

/-- RD_PHY_CONFIG (R189). -/
def execRdPhyConfig (s : State) : Host.Outcome State Fault Refusal := readCommand (regRead .phyConfig) s

/-- WR_PHY_CONFIG (R190). -/
def execWrPhyConfig (v : Word) (s : State) : Host.Outcome State Fault Refusal := writeCommand (regWrite .phyConfig v) s

end Sys2Proof.Machine
end

