-- ==== Sys2Proof/Machine/WordTransfer.lean ====
section
/-! DEFINITION. The word-transfer engine (spec/45_word_transfer.md R290, R291). Its phases (a) and (b) issue one
ascending sequence of whole words (R290), so they are one loop here (log 21). -/

namespace Sys2Proof.Machine

/-- The whole words of a copy of n bytes, in ascending order. -/
def wholeWords (n : Nat) : List WordIx := (List.finRange 16).take (n / 4)

/-- The word that holds the trailing bytes of a copy of n < 64 bytes. -/
def tailWord (n : Nat) : WordIx := .ofNat 16 (n / 4)

/-- Phases (a) and (b) of R290. -/
def putWords (b : BufId) (data : Nat) : List WordIx → State → Host.Outcome State Fault Refusal
  | [], s => .next s
  | k :: ks, s =>
    andThen (memRead4 (data + 4 * k.val) s) fun w => andThen (busWrite (bufWrite b k w) s) (putWords b data ks)

/-- Phase (c) of R290: the trailing bytes, packed into one word with padding 0. -/
def putTail (b : BufId) (data n : Nat) (s : State) : Host.Outcome State Fault Refusal :=
  if n % 4 = 0 then .next s
  else
    andThen (memReadBytes (data + 4 * (n / 4)) (n % 4) s) fun bytes =>
      busWrite (bufWrite b (tailWord n) (packTail bytes)) s

/-- `transfer_to_device(buf, data, n)` (R290). -/
def toDevice (buf data n : Nat) (s : State) : Host.Outcome State Fault Refusal :=
  if 32 ≤ buf ∨ Config.maxPkt < n then raise .argumentRange s
  else if 0 < n ∧ data % 4 ≠ 0 then raise .misalignedMemory s
  else andThen (putWords (.ofNat 32 buf) data (wholeWords n) s) (putTail (.ofNat 32 buf) data n)

/-- Phases (a) and (b) of R291. -/
def getWords (b : BufId) (data : Nat) : List WordIx → State → Host.Outcome State Fault Refusal
  | [], s => .next s
  | k :: ks, s =>
    andThen (busRead (bufRead b k) s) fun p =>
      andThen (memWrite4 (data + 4 * k.val) p.1 p.2) (getWords b data ks)

/-- Phase (c) of R291: one word read, its leading bytes stored one by one. -/
def getTail (b : BufId) (data n : Nat) (s : State) : Host.Outcome State Fault Refusal :=
  if n % 4 = 0 then .next s
  else
    andThen (busRead (bufRead b (tailWord n)) s) fun p =>
      memWriteBytes (data + 4 * (n / 4)) (wordBytes p.1 (n % 4)) p.2

/-- `transfer_from_device(buf, data, n)` (R291). -/
def fromDevice (buf data n : Nat) (s : State) : Host.Outcome State Fault Refusal :=
  if 32 ≤ buf ∨ Config.maxPkt < n then raise .argumentRange s
  else if 0 < n ∧ data % 4 ≠ 0 then raise .misalignedMemory s
  else andThen (getWords (.ofNat 32 buf) data (wholeWords n) s) (getTail (.ofNat 32 buf) data n)

/-- `transfer_to_device` (R290). -/
def execTransferToDevice (buf data size : Nat) (s : State) : Host.Outcome State Fault Refusal :=
  if fitsU8 buf && fitsU32 data && fitsU8 size then
    andThen (toDevice buf data size s) fun s => .next (s.give [])
  else refuse .badOperand s

/-- `transfer_from_device` (R291). -/
def execTransferFromDevice (buf data size : Nat) (s : State) : Host.Outcome State Fault Refusal :=
  if fitsU8 buf && fitsU32 data && fitsU8 size then
    andThen (fromDevice buf data size s) fun s => .next (s.give [])
  else refuse .badOperand s

end Sys2Proof.Machine
end

