-- ==== Sys2Proof/Machine/Transfer.lean ====
section
/-! DEFINITION. The transfer engine: packet send, completion tracking, packet receive (spec/44_transfer.md R260, R262,
R264). -/

namespace Sys2Proof.Machine

/-- `send_packet` (R260). -/
def execSendPacket (buf ep data size : Nat) (s : State) : Host.Outcome State Fault Refusal :=
  if fitsU8 buf && fitsU8 ep && fitsU32 data && fitsU8 size then
    if 32 ≤ buf ∨ 12 ≤ ep ∨ Config.maxPkt < size then raise .argumentRange s
    else
      andThen (if 0 < size then toDevice buf data size s else .next s) fun s =>
      andThen (devWrite (.configIn (.ofNat 12 ep)) (configInWord buf size false) s) fun s =>
      andThen (devRead (.configIn (.ofNat 12 ep)) s) fun p =>
      andThen (devWrite (.configIn (.ofNat 12 ep)) (p.1 ||| 0x80000000#32) p.2) returnOk
  else refuse .badOperand s

/-- `packet_collected` (R262). -/
def execPacketCollected (s : State) : Host.Outcome State Fault Refusal :=
  andThen (devRead .inSent s) fun p =>
    match (List.finRange 12).find? (epBit p.1) with
    | none => returnFail p.2
    | some e =>
      andThen (devWrite .inSent (bit e.val) p.2) fun s =>
      andThen (devRead (.configIn e) s) fun q =>
        .next (q.2.give [statusOk, BitVec.ofNat 32 e.val, BitVec.ofNat 32 (bufIdOf q.1).val])

/-- `recv_packet` (R264). -/
def execRecvPacket (data : Nat) (s : State) : Host.Outcome State Fault Refusal :=
  if fitsU32 data then
    andThen (devRead .usbstat s) fun p =>
      if p.1.extractLsb' 24 4 = 0#4 then returnFail p.2
      else
        andThen (devRead .rxFifo p.2) fun q =>
          let e := rxDecode q.1
          if Config.maxPkt < e.size.toNat ∨ 12 ≤ e.ep.toNat then raise .hardwareInvariant q.2
          else
            andThen (if 0 < e.size.toNat then fromDevice e.buf.val data e.size.toNat q.2 else .next q.2) fun s =>
              .next (s.give [statusOk, e.ep.setWidth 32, BitVec.ofNat 32 e.buf.val, e.size.setWidth 32, flag e.setup])
  else refuse .badOperand s

end Sys2Proof.Machine
end

