-- ==== Sys2Proof/Machine/Dispatch.lean ====
section
/-! DEFINITION. One arm for each instruction. -/

namespace Sys2Proof.Machine

def exec (i : Instr) (s : State) : Host.Outcome State Fault Refusal :=
  match i with
  | .rdIntrState => Sys2Proof.Machine.execRdIntrState s
  | .wrIntrState v => Sys2Proof.Machine.execWrIntrState v s
  | .rdIntrEnable => Sys2Proof.Machine.execRdIntrEnable s
  | .wrIntrEnable v => Sys2Proof.Machine.execWrIntrEnable v s
  | .rdIntrTest => Sys2Proof.Machine.execRdIntrTest s
  | .wrIntrTest v => Sys2Proof.Machine.execWrIntrTest v s
  | .rdAlertTest => Sys2Proof.Machine.execRdAlertTest s
  | .wrAlertTest v => Sys2Proof.Machine.execWrAlertTest v s
  | .rdUsbctrl => Sys2Proof.Machine.execRdUsbctrl s
  | .wrUsbctrl v => Sys2Proof.Machine.execWrUsbctrl v s
  | .rdEpOutEnable => Sys2Proof.Machine.execRdEpOutEnable s
  | .wrEpOutEnable v => Sys2Proof.Machine.execWrEpOutEnable v s
  | .rdEpInEnable => Sys2Proof.Machine.execRdEpInEnable s
  | .wrEpInEnable v => Sys2Proof.Machine.execWrEpInEnable v s
  | .rdUsbstat => Sys2Proof.Machine.execRdUsbstat s
  | .wrUsbstat v => Sys2Proof.Machine.execWrUsbstat v s
  | .rdAvoutbuffer => Sys2Proof.Machine.execRdAvoutbuffer s
  | .wrAvoutbuffer v => Sys2Proof.Machine.execWrAvoutbuffer v s
  | .rdAvsetupbuffer => Sys2Proof.Machine.execRdAvsetupbuffer s
  | .wrAvsetupbuffer v => Sys2Proof.Machine.execWrAvsetupbuffer v s
  | .rdRxfifo => Sys2Proof.Machine.execRdRxfifo s
  | .wrRxfifo v => Sys2Proof.Machine.execWrRxfifo v s
  | .rdRxenableSetup => Sys2Proof.Machine.execRdRxenableSetup s
  | .wrRxenableSetup v => Sys2Proof.Machine.execWrRxenableSetup v s
  | .rdRxenableOut => Sys2Proof.Machine.execRdRxenableOut s
  | .wrRxenableOut v => Sys2Proof.Machine.execWrRxenableOut v s
  | .rdSetNakOut => Sys2Proof.Machine.execRdSetNakOut s
  | .wrSetNakOut v => Sys2Proof.Machine.execWrSetNakOut v s
  | .rdInSent => Sys2Proof.Machine.execRdInSent s
  | .wrInSent v => Sys2Proof.Machine.execWrInSent v s
  | .rdOutStall => Sys2Proof.Machine.execRdOutStall s
  | .wrOutStall v => Sys2Proof.Machine.execWrOutStall v s
  | .rdInStall => Sys2Proof.Machine.execRdInStall s
  | .wrInStall v => Sys2Proof.Machine.execWrInStall v s
  | .rdConfigin0 => Sys2Proof.Machine.execRdConfigin0 s
  | .wrConfigin0 v => Sys2Proof.Machine.execWrConfigin0 v s
  | .rdConfigin1 => Sys2Proof.Machine.execRdConfigin1 s
  | .wrConfigin1 v => Sys2Proof.Machine.execWrConfigin1 v s
  | .rdConfigin2 => Sys2Proof.Machine.execRdConfigin2 s
  | .wrConfigin2 v => Sys2Proof.Machine.execWrConfigin2 v s
  | .rdConfigin3 => Sys2Proof.Machine.execRdConfigin3 s
  | .wrConfigin3 v => Sys2Proof.Machine.execWrConfigin3 v s
  | .rdConfigin4 => Sys2Proof.Machine.execRdConfigin4 s
  | .wrConfigin4 v => Sys2Proof.Machine.execWrConfigin4 v s
  | .rdConfigin5 => Sys2Proof.Machine.execRdConfigin5 s
  | .wrConfigin5 v => Sys2Proof.Machine.execWrConfigin5 v s
  | .rdConfigin6 => Sys2Proof.Machine.execRdConfigin6 s
  | .wrConfigin6 v => Sys2Proof.Machine.execWrConfigin6 v s
  | .rdConfigin7 => Sys2Proof.Machine.execRdConfigin7 s
  | .wrConfigin7 v => Sys2Proof.Machine.execWrConfigin7 v s
  | .rdConfigin8 => Sys2Proof.Machine.execRdConfigin8 s
  | .wrConfigin8 v => Sys2Proof.Machine.execWrConfigin8 v s
  | .rdConfigin9 => Sys2Proof.Machine.execRdConfigin9 s
  | .wrConfigin9 v => Sys2Proof.Machine.execWrConfigin9 v s
  | .rdConfigin10 => Sys2Proof.Machine.execRdConfigin10 s
  | .wrConfigin10 v => Sys2Proof.Machine.execWrConfigin10 v s
  | .rdConfigin11 => Sys2Proof.Machine.execRdConfigin11 s
  | .wrConfigin11 v => Sys2Proof.Machine.execWrConfigin11 v s
  | .rdOutIso => Sys2Proof.Machine.execRdOutIso s
  | .wrOutIso v => Sys2Proof.Machine.execWrOutIso v s
  | .rdInIso => Sys2Proof.Machine.execRdInIso s
  | .wrInIso v => Sys2Proof.Machine.execWrInIso v s
  | .rdOutDataToggle => Sys2Proof.Machine.execRdOutDataToggle s
  | .wrOutDataToggle v => Sys2Proof.Machine.execWrOutDataToggle v s
  | .rdInDataToggle => Sys2Proof.Machine.execRdInDataToggle s
  | .wrInDataToggle v => Sys2Proof.Machine.execWrInDataToggle v s
  | .rdPhyPinsSense => Sys2Proof.Machine.execRdPhyPinsSense s
  | .wrPhyPinsSense v => Sys2Proof.Machine.execWrPhyPinsSense v s
  | .rdPhyPinsDrive => Sys2Proof.Machine.execRdPhyPinsDrive s
  | .wrPhyPinsDrive v => Sys2Proof.Machine.execWrPhyPinsDrive v s
  | .rdPhyConfig => Sys2Proof.Machine.execRdPhyConfig s
  | .wrPhyConfig v => Sys2Proof.Machine.execWrPhyConfig v s
  | .rdBuf b k => Sys2Proof.Machine.execRdBuf b k s
  | .wrBuf b k v => Sys2Proof.Machine.execWrBuf b k v s
  | .wrBufB b j v => Sys2Proof.Machine.execWrBufB b j v s
  | .wrBufH b h v => Sys2Proof.Machine.execWrBufH b h v s
  | .rdUnmapped090 k => Sys2Proof.Machine.execRdUnmapped090 k s
  | .wrUnmapped090 k v => Sys2Proof.Machine.execWrUnmapped090 k v s
  | .rdUnmapped0A0 k => Sys2Proof.Machine.execRdUnmapped0A0 k s
  | .wrUnmapped0A0 k v => Sys2Proof.Machine.execWrUnmapped0A0 k v s
  | .rdUnmapped0C0 k => Sys2Proof.Machine.execRdUnmapped0C0 k s
  | .wrUnmapped0C0 k v => Sys2Proof.Machine.execWrUnmapped0C0 k v s
  | .rdUnmapped100 k => Sys2Proof.Machine.execRdUnmapped100 k s
  | .wrUnmapped100 k v => Sys2Proof.Machine.execWrUnmapped100 k v s
  | .rdUnmapped200 k => Sys2Proof.Machine.execRdUnmapped200 k s
  | .wrUnmapped200 k v => Sys2Proof.Machine.execWrUnmapped200 k v s
  | .rdUnmapped400 k => Sys2Proof.Machine.execRdUnmapped400 k s
  | .wrUnmapped400 k v => Sys2Proof.Machine.execWrUnmapped400 k v s
  | .init => Sys2Proof.Machine.execInit s
  | .configureOutEndpoint ep enabled setup iso => Sys2Proof.Machine.execConfigureOutEndpoint ep enabled setup iso s
  | .configureInEndpoint ep enabled iso => Sys2Proof.Machine.execConfigureInEndpoint ep enabled iso s
  | .setEpStalling ep stalling => Sys2Proof.Machine.execSetEpStalling ep stalling s
  | .setDeviceAddress address => Sys2Proof.Machine.execSetDeviceAddress address s
  | .connect => Sys2Proof.Machine.execConnect s
  | .disconnect => Sys2Proof.Machine.execDisconnect s
  | .connected => Sys2Proof.Machine.execConnected s
  | .supplyBuffers bitmap => Sys2Proof.Machine.execSupplyBuffers bitmap s
  | .sendPacket buf ep data size => Sys2Proof.Machine.execSendPacket buf ep data size s
  | .packetCollected => Sys2Proof.Machine.execPacketCollected s
  | .recvPacket data => Sys2Proof.Machine.execRecvPacket data s
  | .transferToDevice buf data size => Sys2Proof.Machine.execTransferToDevice buf data size s
  | .transferFromDevice buf data size => Sys2Proof.Machine.execTransferFromDevice buf data size s
  | .interruptEnable mask => Sys2Proof.Machine.execInterruptEnable mask s
  | .interruptDisable mask => Sys2Proof.Machine.execInterruptDisable mask s

end Sys2Proof.Machine
end

