-- ==== Sys2Proof/Machine/Turn.lean ====
section
/-! DEFINITION. One step of the machine: `DEV`'s turn or `SW`'s (spec/10_state.md R21, spec/40_register_access.md R140,
spec/46_link_engine.md R325), the fetch of the caller's next command, and the placing of a command there. -/

namespace Sys2Proof.Machine

/-- The refusal of a command that is no instruction (R112, R119, R195). -/
def refuseCommand : DecodeError → State → Host.Outcome State Fault Refusal
  | .illegalDescriptor, s => refuse .illegalDescriptor s
  | .misalignedDeviceAccess, s => refuse .misalignedDeviceAccess s
  | .subWordAccess, s => refuse .subWordAccess s
  | .unmappedOffset, s => refuse .unmappedOffset s

/-- The current command of the caller's list (R21). -/
def State.command (s : State) : Option Cmd := s.prog[s.pc.op]?

/-- Operand slot i of the current command (R20): its slots stand beside it in the list (log 7). -/
def State.slots (s : State) : Option Slots := s.command.map Cmd.x

/-- Result slot i (R20); none where the slot holds no value (R262, U33, log 6). -/
def State.resultSlot (s : State) (i : Nat) : Option Word := s.results[i]?

/-- A command starts at t = 0 with fresh slots (R20, R21). -/
def State.start (s : State) : State := { s with pc := { s.pc with t := 0 }, results := [] }

/-- A command returns: `pc <- (op + 1, 0)` (R21). -/
def State.retire (s : State) : State := { s with pc := ⟨s.pc.op + 1, 0⟩ }

/-- `SW`'s turn: its interleaving point is past, the current command runs whole and returns (R21, R140, log 1). -/
def swTurn (s : State) : Host.Outcome State Fault Refusal :=
  match s.command with
  | none => .fault (.runEnded s)
  | some c =>
    match decode s.params c with
    | .error e => refuseCommand e { s with sched := s.sched.tail }
    | .ok i => andThen (exec i ({ s with sched := s.sched.tail }).start) fun s => .next s.retire

/-- One step. A halted state never steps (R140, R325); the `DEV` steps scheduled for the coming point are taken first,
one a step, and then `SW` runs its current command (log 2). -/
def turn (s : State) : Host.Outcome State Fault Refusal :=
  if s.isHalted then .fault (.halted s)
  else
    match s.sched with
    | (d :: ds) :: rest => .next (devTake { s with sched := ds :: rest } d)
    | _ => swTurn s

/-- The state with a command placed where the next step fetches it, and no `DEV` step due before it. -/
def placeCommand (s : State) (c : Cmd) : State :=
  { s with
    prog := s.prog.take s.pc.op ++ c :: s.prog.drop (s.pc.op + 1)
    pc := ⟨(s.prog.take s.pc.op).length, 0⟩
    sched := match s.sched with
      | [] => []
      | _ :: rest => [] :: rest }

end Sys2Proof.Machine
end

