-- ==== Sys2Proof/Machine/Step.lean ====
section
/-! DEFINITION. The step function, and the placing of a bare descriptor word where it fetches. -/

namespace Sys2Proof.Machine

/-- One step of the machine. -/
def step (s : State) : Host.Outcome State Fault Refusal := turn s

/-- The state in which the next step fetches the table word `w`, zeros beside it. Every descriptor is one 32-bit word,
so `nbits` changes nothing. -/
def State.withFetchWord (s : State) (_nbits w : Nat) : State := placeCommand s (tableCommand w)

end Sys2Proof.Machine
end

