-- ==== Sys2Proof/Safety.lean ====
section
/-! DEFINITION. What counts as a safe run: the ownership rule (spec/10_state.md R61), the ranges the registers and
queues keep, a good end state (spec/70_reset_and_hazards.md R396), the part of the state `DEV` never writes
(spec/46_link_engine.md R326); and the forms in which claims about one command are said. -/

namespace Sys2Proof.Machine

/-- `HWREF(b)`: the number of hardware structures buffer b appears in (R61). -/
def State.hwRef (s : State) (b : BufId) : Nat :=
  s.avOut.count b + s.avSetup.count b + (s.rx.map RxEntry.buf).count b + s.inOwn.toList.count (some b)

/-- The ownership invariant: at most one structure holds a buffer, and hardware owns exactly the buffers that one
holds (R61). -/
abbrev State.Owned (s : State) : Prop :=
  ∀ b : BufId, s.hwRef b ≤ 1 ∧ (s.ownerOf b = .hw ↔ s.hwRef b = 1)

/-- Bits outside a register's mask read 0 (the `res` bits of 10_state.md, and the fields no write may set). -/
abbrev State.ReservedZero (s : State) : Prop :=
  s.intrState &&& ~~~intrMask = 0#32 ∧ s.intrEnable &&& ~~~intrMask = 0#32 ∧
  s.usbctrl &&& ~~~usbctrlMask = 0#32 ∧ s.epOutEnable &&& ~~~epMask = 0#32 ∧
  s.epInEnable &&& ~~~epMask = 0#32 ∧ s.rxEnableSetup &&& ~~~epMask = 0#32 ∧
  s.rxEnableOut &&& ~~~epMask = 0#32 ∧ s.setNakOut = 0#32 ∧ s.inSent &&& ~~~epMask = 0#32 ∧
  s.outStall &&& ~~~epMask = 0#32 ∧ s.inStall &&& ~~~epMask = 0#32 ∧
  (∀ e : EpId, s.configOf e &&& ~~~configInMask = 0#32) ∧
  s.outIso &&& ~~~epMask = 0#32 ∧ s.inIso &&& ~~~epMask = 0#32 ∧
  s.outToggle &&& ~~~epMask = 0#32 ∧ s.inToggle &&& ~~~epMask = 0#32 ∧ s.phyPinsDrive = 0#32

/-- The queues stay within their capacities, and RX holds only entries a reception makes (R50 to R52). -/
abbrev State.QueuesInRange (s : State) : Prop :=
  s.avOut.length ≤ s.params.avOutCap ∧ s.avSetup.length ≤ s.params.avSetupCap ∧ s.rx.length ≤ s.params.rxCap ∧
  ∀ e ∈ s.rx, e.size.toNat ≤ 64 ∧ e.ep.toNat < 12

/-- The IN records: a packet in flight is Ready, a Ready packet has at most 64 bytes (R176, R314), and the buffer an
endpoint will return is the one its record names (R262). -/
abbrev State.InRecords (s : State) : Prop :=
  ∀ e : EpId, (sendingBit (s.configOf e) = true → readyBit (s.configOf e) = true) ∧
    (readyBit (s.configOf e) = true → (sizeField (s.configOf e)).toNat ≤ 64) ∧
    (∀ b, s.inOwnOf e = some b → bufIdOf (s.configOf e) = b)

/-- The invariant of the machine. -/
structure State.Inv (s : State) : Prop where
  params : s.params.Ok
  owned : s.Owned
  reserved : s.ReservedZero
  queues : s.QueuesInRange
  inRecords : s.InRecords
  memory : Memory.wf s.mem = true
  running : s.isHalted = false

/-- A good end state (R396): no verdict, the list is done, no operation part-way. -/
abbrev State.GoodEnd (s : State) : Prop :=
  s.faults = [] ∧ s.refused = false ∧ s.pc = ⟨s.prog.length, 0⟩

/-- No `DEV` step is scheduled. -/
abbrev State.Quiet (s : State) : Prop := s.sched = []

/-- `SW` steps next: the run is not halted and no `DEV` step is due before its command. -/
abbrev State.SwTurn (s : State) : Prop := s.isHalted = false ∧ ∀ g ∈ s.sched.head?, g = []

/-- The fields of State that no step of `DEV` writes (R326), the schedule apart. -/
structure SwPart where
  params : Params
  prog : List Cmd
  pc : Pc
  results : List Word
  mem : List Host.Cell
  intrEnable : Word
  usbctrl : Word
  epOutEnable : Word
  epInEnable : Word
  rxEnableSetup : Word
  rxEnableOut : Word
  setNakOut : Word
  outIso : Word
  inIso : Word
  phyPinsDrive : Word
  phyConfig : Word
  owner : Vector Owner 32
  inOwn : Vector (Option BufId) 12
  faults : List FaultReason
  refused : Bool
  draws : Nat
  deriving DecidableEq, Repr

/-- The part of a state that no step of `DEV` writes. -/
def State.swPart (s : State) : SwPart :=
  { params := s.params, prog := s.prog, pc := s.pc, results := s.results, mem := s.mem, intrEnable := s.intrEnable,
    usbctrl := s.usbctrl, epOutEnable := s.epOutEnable, epInEnable := s.epInEnable,
    rxEnableSetup := s.rxEnableSetup, rxEnableOut := s.rxEnableOut, setNakOut := s.setNakOut, outIso := s.outIso,
    inIso := s.inIso, phyPinsDrive := s.phyPinsDrive, phyConfig := s.phyConfig, owner := s.owner, inOwn := s.inOwn,
    faults := s.faults, refused := s.refused, draws := s.draws }

/-- The stopped state a fault carries. -/
def Fault.stopped : Fault → State
  | .doubleHandoff s => s
  | .availableOverflow s => s
  | .ownershipViolation s => s
  | .uncollectedCompletion s => s
  | .argumentRange s => s
  | .misalignedMemory s => s
  | .hardwareInvariant s => s
  | .outsideMemory s => s
  | .halted s => s
  | .runEnded s => s

/-- The verdict of R345 a fault is; none where the machine is stuck. -/
def Fault.reason : Fault → Option FaultReason
  | .doubleHandoff _ => some .doubleHandoff
  | .availableOverflow _ => some .availableOverflow
  | .ownershipViolation _ => some .ownershipViolation
  | .uncollectedCompletion _ => some .uncollectedCompletion
  | .argumentRange _ => some .argumentRange
  | .misalignedMemory _ => some .misalignedMemory
  | .hardwareInvariant _ => some .hardwareInvariant
  | .outsideMemory _ => none
  | .halted _ => none
  | .runEnded _ => none

/-- The stopped state a refusal of the spec carries. -/
def Refusal.stopped : Refusal → Option State
  | .illegalDescriptor s => some s
  | .misalignedDeviceAccess s => some s
  | .subWordAccess s => some s
  | .unmappedOffset s => some s
  | .writeToReadOnly s => some s
  | .readOfWriteOnly s => some s
  | .unknownFieldWrite s => some s
  | .inTransferBusy s => some s
  | .badOperand s => some s
  | _ => none

/-- The state with REFUSED set (R62). -/
def State.asRefused (s : State) : State := { s with refused := true }

/-- The state with a reason in FAULTS (R62). -/
def State.asFaulted (s : State) (r : FaultReason) : State := { s with faults := addFault r s.faults }

/-- A command has performed `n` transactions and written its result slots; all else is as in `s` (R21, R116). -/
def State.done (s : State) (n : Nat) (results : List Word) : State :=
  { s with pc := ⟨s.pc.op, s.pc.t + n⟩, results := results }

/-- `d` is the descriptor of the register transaction `i` at the default layout, whatever stands beside it; where the
register block starts at another offset, the descriptor's offset is that much higher (R8, R113). -/
def RegisterCommand (d : Word) (i : Word → Instr) : Prop :=
  ∀ (p : Params) (v : Word) (x : Slots), p.LayoutOk → decode p ⟨d + BitVec.ofNat 32 p.regBase, v, x⟩ = .ok (i v)

/-- `d` is the descriptor of the read `i` (`RegisterCommand`), which returns `value` in one transaction and changes
nothing else. -/
def ReadsAs (d : Word) (i : Instr) (value : State → Word) : Prop :=
  RegisterCommand d (fun _ => i) ∧ ∀ s, exec i s = .next (s.done 1 [value s])

/-- `d` is the descriptor of the write `i` of the data word (`RegisterCommand`), which has `effect` in one transaction
and changes nothing else. -/
def WritesAs (d : Word) (i : Word → Instr) (effect : Word → State → State) : Prop :=
  RegisterCommand d i ∧ ∀ v s, exec (i v) s = .next ((effect v s).done 1 [])

/-- `d` is the descriptor of the transaction `i`, which is refused in every state and for every data word. -/
def RefusedAs (d : Word) (i : Word → Instr) (reason : State → Refusal) : Prop :=
  RegisterCommand d i ∧ ∀ v s, exec (i v) s = .refused (reason s.asRefused)

/-- The write of an availability port (R158, R160): `queue` and `cap` are its FIFO and capacity, `put` replaces the
FIFO. -/
def PortWrites (d : Word) (i : Word → Instr) (queue : State → List BufId) (cap : Params → Nat)
    (put : List BufId → State → State) : Prop :=
  RegisterCommand d i ∧
  ∀ (v : Word) (s : State) (b : BufId), (v.extractLsb' 0 5).toNat = b.val →
    (s.ownerOf b = .hw → exec (i v) s = .fault (.doubleHandoff (s.asFaulted .doubleHandoff))) ∧
    (s.ownerOf b = .sw → (queue s).length = cap s.params →
      exec (i v) s = .fault (.availableOverflow
        (({ s with intrState := s.intrState ||| bit (s.params.bitOf .availableBufferOverflow).val } : State).asFaulted
          .availableOverflow))) ∧
    (s.ownerOf b = .sw → (queue s).length ≠ cap s.params →
      exec (i v) s = .next ((put (queue s ++ [b]) { s with owner := s.owner.set b.val .hw }).done 1 []))

/-- The write of CONFIGIN[e] (R176), its checks in the order of R343. -/
def ConfigWrites (d : Word) (i : Word → Instr) (e : EpId) : Prop :=
  RegisterCommand d i ∧
  ∀ (v : Word) (s : State) (b : BufId), (v.extractLsb' 0 5).toNat = b.val →
    let c := s.configIn[e]
    let busy := c.getLsbD 31 || c.getLsbD 29
    let stored (p : Bool) : Word := (v &&& 0x80007F1F#32) ||| (if p then 0x40000000#32 else 0#32)
    let u : State := if v.getLsbD 31 then
        { s with owner := s.owner.set b.val .hw, inOwn := s.inOwn.set e.val (some b) } else s
    let allowed := v.getLsbD 31 = true → (v.extractLsb' 8 7).toNat ≤ 64 ∧ s.ownerOf b = .sw
    (busy = true → exec (i v) s = .refused (.inTransferBusy s.asRefused)) ∧
    (busy = false → s.inOwnOf e ≠ none →
      exec (i v) s = .fault (.uncollectedCompletion (s.asFaulted .uncollectedCompletion))) ∧
    (busy = false → s.inOwnOf e = none → v.getLsbD 31 = true → 64 < (v.extractLsb' 8 7).toNat →
      exec (i v) s = .fault (.argumentRange (s.asFaulted .argumentRange))) ∧
    (busy = false → s.inOwnOf e = none → v.getLsbD 31 = true → (v.extractLsb' 8 7).toNat ≤ 64 → s.ownerOf b = .hw →
      exec (i v) s = .fault (.doubleHandoff (s.asFaulted .doubleHandoff))) ∧
    (busy = false → s.inOwnOf e = none → allowed → v.getLsbD 30 = false →
      exec (i v) s = .next (({ u with configIn := s.configIn.set e.val (stored (c.getLsbD 30)) } : State).done 1 [])) ∧
    (busy = false → s.inOwnOf e = none → allowed → v.getLsbD 30 = true →
      exec (i v) s = .next (({ u with configIn := s.configIn.set e.val (stored (Config.freeBool s.draws)),
                                      draws := s.draws + 1 } : State).done 1 []))

/-- The operation `i` completes from `s` in `n` transactions with its result slots written, whatever `DEV` does: the
fields `DEV` never writes are then those of `after`, and with no `DEV` step scheduled the whole state is. -/
def Completes (i : Instr) (s : State) (n : Nat) (results : List Word) (after : State) : Prop :=
  ∃ t, exec i s = .next t ∧ t.swPart = (after.done n results).swPart ∧ (s.Quiet → t = after.done n results)

/-- The number of buffer transactions of a copy of `n` bytes (R294). -/
def copyCount (n : Nat) : Nat := (n + 3) / 4

/-- All `n` bytes from `data` on lie in the caller's memory (R81). -/
abbrev State.HasBytes (s : State) (data n : Nat) : Prop := ∀ j < n, inMemory s.params (data + j) = true

end Sys2Proof.Machine
end

