-- ==== Sys2Proof/Certificates/Slice0/Obligations.lean ====
section
/-! DEFINITION. The statements for the provers, from the spec's numbered rules: encoding, the register and buffer
transactions, the operations, the link engine, the whole machine. -/

open Sys2Proof Sys2Proof.Machine

/-! ### Encoding -/

/-- Decoding and encoding agree: no bit of an encoding and no operand is dropped (R110, R111, R115, R116). At the
default layout this holds of every instruction, and at every layout R8 allows of every instruction but an unmapped row
whose offset holds a register or a buffer there. -/
def Obligations.DecodeEncode : Prop :=
  (∀ i : Instr, decode .default (encode .default i) = .ok i) ∧
  (∀ (p : Params) (i : Instr), p.LayoutOk → i.Placed p → decode p (encode p i) = .ok i)

/-- The decoder ignores no bit of the descriptor: what decodes to an instruction carries that instruction's own
descriptor word (R110, R111, R115). -/
def Obligations.DecodeReadsWholeDescriptor : Prop :=
  ∀ (p : Params) (c : Cmd) (i : Instr), p.LayoutOk → decode p c = .ok i → (encode p i).desc = c.desc

/-- The checks of a transaction descriptor, in the order of R112, at every layout R8 allows; and what the descriptors
that pass them are: a register's or a buffer's access, the table's row of an unmapped offset, or, for an offset that is
unmapped and has no row (log 12; none at the default layout), refused as unmapped. -/
def Obligations.TransactionDescriptorChecks : Prop :=
  ∀ (p : Params) (c : Cmd), p.LayoutOk → c.desc.getLsbD 31 = false →
    let off := (c.desc.extractLsb' 0 12).toNat
    let write := c.desc.getLsbD 12
    let sz := (c.desc.extractLsb' 13 2).toNat
    let top := c.desc.extractLsb' 15 17
    (top ≠ 0#17 → decode p c = .error .illegalDescriptor) ∧
    (top = 0#17 → sz = 3 → decode p c = .error .illegalDescriptor) ∧
    (top = 0#17 → sz = 2 → off % 4 ≠ 0 → decode p c = .error .misalignedDeviceAccess) ∧
    (top = 0#17 → sz < 2 → ¬(write = true ∧ p.bufBase ≤ off) → decode p c = .error .subWordAccess) ∧
    (top = 0#17 → sz = 1 → write = true → p.bufBase ≤ off → off % 2 ≠ 0 →
      decode p c = .error .misalignedDeviceAccess) ∧
    (top = 0#17 → (sz = 2 ∧ off % 4 = 0 ∨ sz = 1 ∧ write = true ∧ p.bufBase ≤ off ∧ off % 2 = 0 ∨
        sz = 0 ∧ write = true ∧ p.bufBase ≤ off) →
      (p.InRegisters off ∨ p.InBuffers off → ∃ i, decode p c = .ok i ∧ i.unmappedOffset = none) ∧
      (¬p.InRegisters off → ¬p.InBuffers off → 0x090 ≤ off → off < 0x800 →
        ∃ i, decode p c = .ok i ∧ i.unmappedOffset = some off) ∧
      (¬p.InRegisters off → ¬p.InBuffers off → ¬(0x090 ≤ off ∧ off < 0x800) → decode p c = .error .unmappedOffset))

/-- The operation descriptors: reserved bits are refused, every operation code is assigned, and every operation reads
exactly its own slots (R115, R116, R117, R119). -/
def Obligations.OperationDescriptors : Prop :=
  (∀ (p : Params) (c : Cmd), c.desc.getLsbD 31 = true →
    c.desc.extractLsb' 28 3 ≠ 0#3 ∨ c.desc.extractLsb' 0 24 ≠ 0#24 → decode p c = .error .illegalDescriptor) ∧
  (∀ (p : Params) (v : Word) (x : Slots),
    decode p ⟨0x80000000#32, v, x⟩ = .ok .init ∧
    decode p ⟨0x81000000#32, v, x⟩ = .ok (.configureOutEndpoint x.x0 x.x1 x.x2 x.x3) ∧
    decode p ⟨0x82000000#32, v, x⟩ = .ok (.configureInEndpoint x.x0 x.x1 x.x2) ∧
    decode p ⟨0x83000000#32, v, x⟩ = .ok (.setEpStalling x.x0 x.x1) ∧
    decode p ⟨0x84000000#32, v, x⟩ = .ok (.setDeviceAddress x.x0) ∧
    decode p ⟨0x85000000#32, v, x⟩ = .ok .connect ∧
    decode p ⟨0x86000000#32, v, x⟩ = .ok .disconnect ∧
    decode p ⟨0x87000000#32, v, x⟩ = .ok .connected ∧
    decode p ⟨0x88000000#32, v, x⟩ = .ok (.supplyBuffers x.x0) ∧
    decode p ⟨0x89000000#32, v, x⟩ = .ok (.sendPacket x.x0 x.x1 x.x2 x.x3) ∧
    decode p ⟨0x8A000000#32, v, x⟩ = .ok .packetCollected ∧
    decode p ⟨0x8B000000#32, v, x⟩ = .ok (.recvPacket x.x0) ∧
    decode p ⟨0x8C000000#32, v, x⟩ = .ok (.transferToDevice x.x0 x.x1 x.x2) ∧
    decode p ⟨0x8D000000#32, v, x⟩ = .ok (.transferFromDevice x.x0 x.x1 x.x2) ∧
    decode p ⟨0x8E000000#32, v, x⟩ = .ok (.interruptEnable x.x0) ∧
    decode p ⟨0x8F000000#32, v, x⟩ = .ok (.interruptDisable x.x0))

/-- A few words of 95_test_vectors.md, 2.1, decoded by hand from R111, R113 and R115, at the default layout. -/
def Obligations.SampleWords : Prop :=
  decode .default ⟨0x0000401C#32, 0#32, {}⟩ = .ok .rdUsbstat ∧
  decode .default ⟨0x00005048#32, 0x303#32, {}⟩ = .ok (.wrConfigin1 0x303#32) ∧
  decode .default ⟨0x00004FFC#32, 0#32, {}⟩ = .ok (.rdBuf 31 15) ∧
  decode .default ⟨0x00001801#32, 0xAA#32, {}⟩ = .ok (.wrBufB 0 1 0xAA#32) ∧
  decode .default ⟨0x00003802#32, 0xBEEF#32, {}⟩ = .ok (.wrBufH 0 1 0xBEEF#32) ∧
  decode .default ⟨0x000047FC#32, 0#32, {}⟩ = .ok (.rdUnmapped400 255) ∧
  decode .default ⟨0x8B000000#32, 0#32, { x0 := 0x20000100 }⟩ = .ok (.recvPacket 0x20000100) ∧
  decode .default ⟨0x00004002#32, 0#32, {}⟩ = .error .misalignedDeviceAccess ∧
  decode .default ⟨0x00006000#32, 0#32, {}⟩ = .error .illegalDescriptor ∧
  decode .default ⟨0x00018000#32, 0#32, {}⟩ = .error .illegalDescriptor ∧
  decode .default ⟨0x00000800#32, 0#32, {}⟩ = .error .subWordAccess ∧
  decode .default ⟨0x00001010#32, 0#32, {}⟩ = .error .subWordAccess ∧
  decode .default ⟨0x00003801#32, 0#32, {}⟩ = .error .misalignedDeviceAccess ∧
  decode .default ⟨0x80000001#32, 0#32, {}⟩ = .error .illegalDescriptor ∧
  decode .default ⟨0x90000000#32, 0#32, {}⟩ = .error .illegalDescriptor

/-- Field assembly (R118): `bit`, `configin`, `rx_decode`, `usbctrl_addr`, `buf_off` and `avail`, each field at its
place and no bit elsewhere; and `rx_decode` reads back what RXFIFO's layout writes (R33). -/
def Obligations.FieldAssembly : Prop :=
  (∀ (buf size : Nat) (r : Bool), buf < 32 → size < 128 →
    (configInWord buf size r).toNat = buf + 256 * size + (if r then 2147483648 else 0)) ∧
  (∀ w : Word, (rxDecode w).buf.val = (w.extractLsb' 0 5).toNat ∧ (rxDecode w).size = w.extractLsb' 8 7 ∧
    (rxDecode w).setup = w.getLsbD 19 ∧ (rxDecode w).ep = w.extractLsb' 20 4) ∧
  (∀ e : RxEntry, rxDecode (rxWord e) = e) ∧
  (∀ (v : Word) (a : Nat), a < 128 →
    ((usbctrlAddr v a).extractLsb' 16 7).toNat = a ∧ usbctrlAddr v a &&& 0xFF80FFFF#32 = v &&& 0xFF80FFFF#32) ∧
  (∀ b : Nat, (availWord b).toNat = b % 32) ∧
  (∀ e i : Nat, e < 32 → (bit e).getLsbD i = decide (i = e)) ∧
  (∀ (p : Params) (b : BufId) (k : WordIx), bufOff p b k = p.bufBase + 64 * b.val + 4 * k.val)

/-! ### Register and buffer transactions -/

/-- RD INTR_STATE, RD INTR_ENABLE and RD INTR_TEST (R141, R143, R145). -/
def Obligations.InterruptRegisterReads : Prop :=
  ReadsAs 0x4000#32 .rdIntrState (fun s => s.intrState &&& 0x3FFFF#32) ∧
  ReadsAs 0x4004#32 .rdIntrEnable (fun s => s.intrEnable &&& 0x3FFFF#32) ∧
  ReadsAs 0x4008#32 .rdIntrTest (fun _ => 0#32)

/-- WR INTR_STATE clears, WR INTR_ENABLE stores and WR INTR_TEST sets (R142, R144, R146); the interrupt line follows
the enables at once (R56). -/
def Obligations.InterruptRegisterWrites : Prop :=
  WritesAs 0x5000#32 .wrIntrState (fun v s => { s with intrState := s.intrState &&& ~~~(v &&& 0x3FFFF#32) }) ∧
  WritesAs 0x5004#32 .wrIntrEnable (fun v s => { s with intrEnable := v &&& 0x3FFFF#32 }) ∧
  WritesAs 0x5008#32 .wrIntrTest (fun v s => { s with intrState := s.intrState ||| (v &&& 0x3FFFF#32) }) ∧
  (∀ (v : Word) (s t : State), exec (.wrIntrEnable v) s = .next t →
    (t.irq = true ↔ ∃ i < 18, s.intrState.getLsbD i = true ∧ v.getLsbD i = true))

/-- The reads of the per-endpoint bitmaps (R151, R153, R163, R165, R171, R173, R177, R179, R181, R183). -/
def Obligations.EndpointBitmapReads : Prop :=
  ReadsAs 0x4014#32 .rdEpOutEnable (fun s => s.epOutEnable &&& 0xFFF#32) ∧
  ReadsAs 0x4018#32 .rdEpInEnable (fun s => s.epInEnable &&& 0xFFF#32) ∧
  ReadsAs 0x402C#32 .rdRxenableSetup (fun s => s.rxEnableSetup &&& 0xFFF#32) ∧
  ReadsAs 0x4030#32 .rdRxenableOut (fun s => s.rxEnableOut &&& 0xFFF#32) ∧
  ReadsAs 0x403C#32 .rdOutStall (fun s => s.outStall &&& 0xFFF#32) ∧
  ReadsAs 0x4040#32 .rdInStall (fun s => s.inStall &&& 0xFFF#32) ∧
  ReadsAs 0x4074#32 .rdOutIso (fun s => s.outIso &&& 0xFFF#32) ∧
  ReadsAs 0x4078#32 .rdInIso (fun s => s.inIso &&& 0xFFF#32) ∧
  ReadsAs 0x407C#32 .rdOutDataToggle (fun s => s.outToggle &&& 0xFFF#32) ∧
  ReadsAs 0x4080#32 .rdInDataToggle (fun s => s.inToggle &&& 0xFFF#32)

/-- The writes of the per-endpoint bitmaps (R152, R154, R164, R166, R172, R174, R178, R180). -/
def Obligations.EndpointBitmapWrites : Prop :=
  WritesAs 0x5014#32 .wrEpOutEnable (fun v s => { s with epOutEnable := v &&& 0xFFF#32 }) ∧
  WritesAs 0x5018#32 .wrEpInEnable (fun v s => { s with epInEnable := v &&& 0xFFF#32 }) ∧
  WritesAs 0x502C#32 .wrRxenableSetup (fun v s => { s with rxEnableSetup := v &&& 0xFFF#32 }) ∧
  WritesAs 0x5030#32 .wrRxenableOut (fun v s => { s with rxEnableOut := v &&& 0xFFF#32 }) ∧
  WritesAs 0x503C#32 .wrOutStall (fun v s => { s with outStall := v &&& 0xFFF#32 }) ∧
  WritesAs 0x5040#32 .wrInStall (fun v s => { s with inStall := v &&& 0xFFF#32 }) ∧
  WritesAs 0x5074#32 .wrOutIso (fun v s => { s with outIso := v &&& 0xFFF#32 }) ∧
  WritesAs 0x5078#32 .wrInIso (fun v s => { s with inIso := v &&& 0xFFF#32 })

/-- RD USBCTRL, and WR USBCTRL, which is refused when it sets Resume (R149, R150). -/
def Obligations.UsbctrlAccess : Prop :=
  ReadsAs 0x4010#32 .rdUsbctrl (fun s => s.usbctrl &&& 0x007F0001#32) ∧
  RegisterCommand 0x5010#32 .wrUsbctrl ∧
  ∀ (v : Word) (s : State),
    (v.getLsbD 1 = true → exec (.wrUsbctrl v) s = .refused (.unknownFieldWrite s.asRefused)) ∧
    (v.getLsbD 1 = false →
      exec (.wrUsbctrl v) s = .next (({ s with usbctrl := v &&& 0x007F0001#32 } : State).done 1 []))

/-- RD USBSTAT (R155): the formula of the rule, and, while the FIFOs are within their capacities, every field of R30 at
its place and zeros between them. -/
def Obligations.StatusRead : Prop :=
  ReadsAs 0x401C#32 .rdUsbstat (fun s =>
    s.frame.setWidth 32 ||| (flag s.hostLost <<< 11) ||| (s.linkState.setWidth 32 <<< 12) ||| (flag s.sense <<< 15)
      ||| (BitVec.ofNat 32 s.avOut.length <<< 16) ||| (BitVec.ofNat 32 s.avSetup.length <<< 20)
      ||| (flag (decide (s.avOut.length = s.params.avOutCap)) <<< 23) ||| (BitVec.ofNat 32 s.rx.length <<< 24)
      ||| (flag (decide (s.avSetup.length = s.params.avSetupCap)) <<< 30)
      ||| (flag (decide (s.rx.length = 0)) <<< 31)) ∧
  ∀ s : State, s.params.Ok → s.QueuesInRange → ∃ w : Word,
    exec .rdUsbstat s = .next (s.done 1 [w]) ∧
    w.extractLsb' 0 11 = s.frame ∧ w.getLsbD 11 = s.hostLost ∧ w.extractLsb' 12 3 = s.linkState ∧
    w.getLsbD 15 = s.sense ∧ (w.extractLsb' 16 4).toNat = s.avOut.length ∧
    (w.extractLsb' 20 3).toNat = s.avSetup.length ∧
    w.getLsbD 23 = decide (s.avOut.length = s.params.avOutCap) ∧ (w.extractLsb' 24 4).toNat = s.rx.length ∧
    w.extractLsb' 28 2 = 0#2 ∧ w.getLsbD 30 = decide (s.avSetup.length = s.params.avSetupCap) ∧
    w.getLsbD 31 = decide (s.rx.length = 0)

/-- WR AVOUTBUFFER and WR AVSETUPBUFFER (R158, R160): one id enqueued and handed to hardware, a hardware-owned id or a
full FIFO faults, and the overflow sets AvailableBufferOverflow first. -/
def Obligations.AvailabilityPortWrites : Prop :=
  PortWrites 0x5020#32 .wrAvoutbuffer State.avOut Params.avOutCap (fun q s => { s with avOut := q }) ∧
  PortWrites 0x5024#32 .wrAvsetupbuffer State.avSetup Params.avSetupCap (fun q s => { s with avSetup := q })

/-- RD RXFIFO (R161): the head entry is popped, laid out as in R33, and its buffer goes back to software; with the FIFO
empty the value is free and only the model's own draw counter moves (log 8). -/
def Obligations.ReceiveFifoRead : Prop :=
  RegisterCommand 0x4028#32 (fun _ => .rdRxfifo) ∧
  (∀ s : State, s.rx = [] →
    exec .rdRxfifo s = .next (({ s with draws := s.draws + 1 } : State).done 1 [Config.freeWord s.draws])) ∧
  (∀ (s : State) (e : RxEntry) (rest : List RxEntry), s.rx = e :: rest →
    exec .rdRxfifo s = .next (({ s with rx := rest, owner := s.owner.set e.buf.val .sw } : State).done 1
      [BitVec.ofNat 32 e.buf.val ||| (e.size.setWidth 32 <<< 8) ||| (flag e.setup <<< 19)
        ||| (e.ep.setWidth 32 <<< 20)]))

/-- RD IN_SENT (R169): the bits are returned, and every buffer whose endpoint bit the read sees goes back to software,
once. -/
def Obligations.InSentRead : Prop :=
  RegisterCommand 0x4038#32 (fun _ => .rdInSent) ∧
  ∀ s : State, ∃ t, exec .rdInSent s = .next t ∧
    t = ({ s with owner := t.owner, inOwn := t.inOwn } : State).done 1 [s.inSent &&& 0xFFF#32] ∧
    (∀ e : EpId, t.inOwnOf e = if s.inSent.getLsbD e.val then none else s.inOwnOf e) ∧
    (∀ b : BufId, t.ownerOf b =
      if ∃ e : EpId, s.inSent.getLsbD e.val = true ∧ s.inOwnOf e = some b then .sw else s.ownerOf b)

/-- WR IN_SENT (R170): only the bits written 1 are cleared. -/
def Obligations.InSentWrite : Prop :=
  WritesAs 0x5038#32 .wrInSent (fun v s => { s with inSent := s.inSent &&& ~~~(v &&& 0xFFF#32) })

/-- RD CONFIGIN0 to CONFIGIN11 (R175). -/
def Obligations.ConfigInReads : Prop :=
  ReadsAs 0x4044#32 .rdConfigin0 (fun s => s.configIn[0] &&& 0xE0007F1F#32) ∧
  ReadsAs 0x4048#32 .rdConfigin1 (fun s => s.configIn[1] &&& 0xE0007F1F#32) ∧
  ReadsAs 0x404C#32 .rdConfigin2 (fun s => s.configIn[2] &&& 0xE0007F1F#32) ∧
  ReadsAs 0x4050#32 .rdConfigin3 (fun s => s.configIn[3] &&& 0xE0007F1F#32) ∧
  ReadsAs 0x4054#32 .rdConfigin4 (fun s => s.configIn[4] &&& 0xE0007F1F#32) ∧
  ReadsAs 0x4058#32 .rdConfigin5 (fun s => s.configIn[5] &&& 0xE0007F1F#32) ∧
  ReadsAs 0x405C#32 .rdConfigin6 (fun s => s.configIn[6] &&& 0xE0007F1F#32) ∧
  ReadsAs 0x4060#32 .rdConfigin7 (fun s => s.configIn[7] &&& 0xE0007F1F#32) ∧
  ReadsAs 0x4064#32 .rdConfigin8 (fun s => s.configIn[8] &&& 0xE0007F1F#32) ∧
  ReadsAs 0x4068#32 .rdConfigin9 (fun s => s.configIn[9] &&& 0xE0007F1F#32) ∧
  ReadsAs 0x406C#32 .rdConfigin10 (fun s => s.configIn[10] &&& 0xE0007F1F#32) ∧
  ReadsAs 0x4070#32 .rdConfigin11 (fun s => s.configIn[11] &&& 0xE0007F1F#32)

/-- WR CONFIGIN0 to CONFIGIN11 (R176): the busy refusal, the three faults in the order of R343, the handoff, and the
stored word, in which Pending is free when the write sets bit 30 (log 8). -/
def Obligations.ConfigInWrites : Prop :=
  ConfigWrites 0x5044#32 .wrConfigin0 0 ∧ ConfigWrites 0x5048#32 .wrConfigin1 1 ∧
  ConfigWrites 0x504C#32 .wrConfigin2 2 ∧ ConfigWrites 0x5050#32 .wrConfigin3 3 ∧
  ConfigWrites 0x5054#32 .wrConfigin4 4 ∧ ConfigWrites 0x5058#32 .wrConfigin5 5 ∧
  ConfigWrites 0x505C#32 .wrConfigin6 6 ∧ ConfigWrites 0x5060#32 .wrConfigin7 7 ∧
  ConfigWrites 0x5064#32 .wrConfigin8 8 ∧ ConfigWrites 0x5068#32 .wrConfigin9 9 ∧
  ConfigWrites 0x506C#32 .wrConfigin10 10 ∧ ConfigWrites 0x5070#32 .wrConfigin11 11

/-- The registers of which no source gives an effect: ALERT_TEST, SET_NAK_OUT and PHY_PINS_DRIVE accept only zeros and
read 0 (R147, R148, R167, R168, R187, R188). -/
def Obligations.UnknownFieldRegisters : Prop :=
  ReadsAs 0x400C#32 .rdAlertTest (fun _ => 0#32) ∧
  ReadsAs 0x4034#32 .rdSetNakOut (fun s => s.setNakOut &&& 0xFFF#32) ∧
  ReadsAs 0x4088#32 .rdPhyPinsDrive (fun s => s.phyPinsDrive) ∧
  (∀ s : State, s.ReservedZero → exec .rdSetNakOut s = .next (s.done 1 [0#32]) ∧
    exec .rdPhyPinsDrive s = .next (s.done 1 [0#32])) ∧
  RegisterCommand 0x500C#32 .wrAlertTest ∧ RegisterCommand 0x5034#32 .wrSetNakOut ∧
  RegisterCommand 0x5088#32 .wrPhyPinsDrive ∧
  ∀ (v : Word) (s : State),
    (v ≠ 0#32 → exec (.wrAlertTest v) s = .refused (.unknownFieldWrite s.asRefused)) ∧
    (v = 0#32 → exec (.wrAlertTest v) s = .next (s.done 1 [])) ∧
    (v &&& 0xFFF#32 ≠ 0#32 → exec (.wrSetNakOut v) s = .refused (.unknownFieldWrite s.asRefused)) ∧
    (v &&& 0xFFF#32 = 0#32 → exec (.wrSetNakOut v) s = .next (s.done 1 [])) ∧
    (v ≠ 0#32 → exec (.wrPhyPinsDrive v) s = .refused (.unknownFieldWrite s.asRefused)) ∧
    (v = 0#32 → exec (.wrPhyPinsDrive v) s = .next (s.done 1 []))

/-- PHY_PINS_SENSE reads a free value, PHY_CONFIG reads what it holds, and a write of it that sets bits 31:1 is refused
(R185, R189, R190; the model's draw counter is log 8). -/
def Obligations.PhyRegisters : Prop :=
  RegisterCommand 0x4084#32 (fun _ => .rdPhyPinsSense) ∧
  (∀ s : State, exec .rdPhyPinsSense s =
    .next (({ s with draws := s.draws + 1 } : State).done 1 [Config.freeWord s.draws])) ∧
  ReadsAs 0x408C#32 .rdPhyConfig (fun s => s.phyConfig) ∧
  RegisterCommand 0x508C#32 .wrPhyConfig ∧
  ∀ (v : Word) (s : State),
    (v.extractLsb' 1 31 ≠ 0#31 → exec (.wrPhyConfig v) s = .refused (.unknownFieldWrite s.asRefused)) ∧
    (v.extractLsb' 1 31 = 0#31 →
      exec (.wrPhyConfig v) s = .next (({ s with phyConfig := v } : State).done 1 []))

/-- The transactions refused in every state (R156, R157, R159, R162, R182, R184, R186). -/
def Obligations.AlwaysRefusedTransactions : Prop :=
  RefusedAs 0x501C#32 .wrUsbstat .writeToReadOnly ∧
  RefusedAs 0x4020#32 (fun _ => .rdAvoutbuffer) .readOfWriteOnly ∧
  RefusedAs 0x4024#32 (fun _ => .rdAvsetupbuffer) .readOfWriteOnly ∧
  RefusedAs 0x5028#32 .wrRxfifo .writeToReadOnly ∧
  RefusedAs 0x507C#32 .wrOutDataToggle .unknownFieldWrite ∧
  RefusedAs 0x5080#32 .wrInDataToggle .unknownFieldWrite ∧
  RefusedAs 0x5084#32 .wrPhyPinsSense .writeToReadOnly

/-- A word transaction at an offset between the registers and the buffers is refused, read or write: from 0x090 to below
0x800 at the default layout, and so at every layout R8 allows (R195). So is every row of the table that stands for such
offsets. -/
def Obligations.UnmappedOffsetsRefused : Prop :=
  (∀ (off : Nat) (v : Word) (x : Slots) (s : State), 0x090 ≤ off → off < 0x800 → off % 4 = 0 →
    (∃ i, decode .default ⟨BitVec.ofNat 32 (0x4000 + off), v, x⟩ = .ok i ∧
      exec i s = .refused (.unmappedOffset s.asRefused)) ∧
    (∃ i, decode .default ⟨BitVec.ofNat 32 (0x5000 + off), v, x⟩ = .ok i ∧
      exec i s = .refused (.unmappedOffset s.asRefused))) ∧
  (∀ (off : Nat) (v : Word) (x : Slots) (s : State) (d : Word), s.params.LayoutOk →
    s.params.regBase + 0x90 ≤ off → off < s.params.bufBase → off % 4 = 0 →
    d = BitVec.ofNat 32 (0x4000 + off) ∨ d = BitVec.ofNat 32 (0x5000 + off) →
    s.SwTurn → s.prog[s.pc.op]? = some ⟨d, v, x⟩ →
    ∃ t, step s = .refused (.unmappedOffset t) ∧ t.refused = true) ∧
  (∀ (s : State) (v : Word),
    (∀ k, exec (.rdUnmapped090 k) s = .refused (.unmappedOffset s.asRefused)) ∧
    (∀ k, exec (.wrUnmapped090 k v) s = .refused (.unmappedOffset s.asRefused)) ∧
    (∀ k, exec (.rdUnmapped0A0 k) s = .refused (.unmappedOffset s.asRefused)) ∧
    (∀ k, exec (.wrUnmapped0A0 k v) s = .refused (.unmappedOffset s.asRefused)) ∧
    (∀ k, exec (.rdUnmapped0C0 k) s = .refused (.unmappedOffset s.asRefused)) ∧
    (∀ k, exec (.wrUnmapped0C0 k v) s = .refused (.unmappedOffset s.asRefused)) ∧
    (∀ k, exec (.rdUnmapped100 k) s = .refused (.unmappedOffset s.asRefused)) ∧
    (∀ k, exec (.wrUnmapped100 k v) s = .refused (.unmappedOffset s.asRefused)) ∧
    (∀ k, exec (.rdUnmapped200 k) s = .refused (.unmappedOffset s.asRefused)) ∧
    (∀ k, exec (.wrUnmapped200 k v) s = .refused (.unmappedOffset s.asRefused)) ∧
    (∀ k, exec (.rdUnmapped400 k) s = .refused (.unmappedOffset s.asRefused)) ∧
    (∀ k, exec (.wrUnmapped400 k v) s = .refused (.unmappedOffset s.asRefused)))

/-- A word read of buffer memory (R191, R82): byte j of the word is byte 4k + j of the buffer; a hardware-owned buffer
faults. -/
def Obligations.BufferWordRead : Prop :=
  (∀ (p : Params) (b : BufId) (k : WordIx) (v : Word) (x : Slots), p.LayoutOk →
    decode p ⟨BitVec.ofNat 32 (0x4000 + p.bufBase + 64 * b.val + 4 * k.val), v, x⟩ = .ok (.rdBuf b k)) ∧
  ∀ (b : BufId) (k : WordIx) (s : State),
    (s.ownerOf b = .hw → exec (.rdBuf b k) s = .fault (.ownershipViolation (s.asFaulted .ownershipViolation))) ∧
    (s.ownerOf b = .sw → ∃ w : Word, exec (.rdBuf b k) s = .next (s.done 1 [w]) ∧
      ∀ j : Fin 4, w.extractLsb' (8 * j.val) 8 = s.bufByte b (byteIx k j))

/-- A word write of buffer memory (R192, R82): four bytes of one buffer, the lowest first, and nothing else; a
hardware-owned buffer faults. -/
def Obligations.BufferWordWrite : Prop :=
  (∀ (p : Params) (b : BufId) (k : WordIx) (v : Word) (x : Slots), p.LayoutOk →
    decode p ⟨BitVec.ofNat 32 (0x5000 + p.bufBase + 64 * b.val + 4 * k.val), v, x⟩ = .ok (.wrBuf b k v)) ∧
  ∀ (b : BufId) (k : WordIx) (v : Word) (s : State),
    (s.ownerOf b = .hw → exec (.wrBuf b k v) s = .fault (.ownershipViolation (s.asFaulted .ownershipViolation))) ∧
    (s.ownerOf b = .sw → ∃ t, exec (.wrBuf b k v) s = .next t ∧
      t = ({ s with bufMem := t.bufMem } : State).done 1 [] ∧
      ∀ (b' : BufId) (j : ByteIx), t.bufByte b' j =
        if b' = b ∧ j.val / 4 = k.val then v.extractLsb' (8 * (j.val % 4)) 8 else s.bufByte b' j)

/-- A byte or halfword write of buffer memory is dropped, whoever owns the buffer (R193, R194). -/
def Obligations.SubWordWritesDropped : Prop :=
  (∀ (p : Params) (b : BufId) (j : ByteIx) (v : Word) (x : Slots), p.LayoutOk →
    decode p ⟨BitVec.ofNat 32 (0x1000 + p.bufBase + 64 * b.val + j.val), v, x⟩ = .ok (.wrBufB b j v)) ∧
  (∀ (p : Params) (b : BufId) (h : Fin 32) (v : Word) (x : Slots), p.LayoutOk →
    decode p ⟨BitVec.ofNat 32 (0x3000 + p.bufBase + 64 * b.val + 2 * h.val), v, x⟩ = .ok (.wrBufH b h v)) ∧
  (∀ (b : BufId) (j : ByteIx) (v : Word) (s : State), exec (.wrBufB b j v) s = .next (s.done 1 [])) ∧
  (∀ (b : BufId) (h : Fin 32) (v : Word) (s : State), exec (.wrBufH b h v) s = .next (s.done 1 []))

/-! ### Operations -/

/-- `init` (R243). -/
def Obligations.InitOperation : Prop :=
  (∀ p v x, decode p ⟨0x80000000#32, v, x⟩ = .ok .init) ∧
  ∀ s : State, Completes .init s 1 [0#32] { s with phyConfig := 1#32 }

/-- `configure_out_endpoint` (R220): bit ep of four registers, whatever `DEV` does; an endpoint of 12 or more fails and
changes no register. -/
def Obligations.ConfigureOutEndpoint : Prop :=
  (∀ p v x, decode p ⟨0x81000000#32, v, x⟩ = .ok (.configureOutEndpoint x.x0 x.x1 x.x2 x.x3)) ∧
  (∀ (s : State) (ep : Nat) (enabled setup iso : Bool), 12 ≤ ep → ep < 256 →
    exec (.configureOutEndpoint ep enabled.toNat setup.toNat iso.toNat) s = .next (s.done 0 [s.params.statusFail])) ∧
  (∀ (s : State) (ep : EpId) (enabled setup iso : Bool),
    Completes (.configureOutEndpoint ep.val enabled.toNat setup.toNat iso.toNat) s 8 [0#32]
      { s with epOutEnable := setEpBit (s.epOutEnable &&& 0xFFF#32) ep enabled,
               rxEnableSetup := setEpBit (s.rxEnableSetup &&& 0xFFF#32) ep setup,
               rxEnableOut := setEpBit (s.rxEnableOut &&& 0xFFF#32) ep enabled,
               outIso := setEpBit (s.outIso &&& 0xFFF#32) ep iso })

/-- `configure_in_endpoint` (R221). -/
def Obligations.ConfigureInEndpoint : Prop :=
  (∀ p v x, decode p ⟨0x82000000#32, v, x⟩ = .ok (.configureInEndpoint x.x0 x.x1 x.x2)) ∧
  (∀ (s : State) (ep : Nat) (enabled iso : Bool), 12 ≤ ep → ep < 256 →
    exec (.configureInEndpoint ep enabled.toNat iso.toNat) s = .next (s.done 0 [s.params.statusFail])) ∧
  (∀ (s : State) (ep : EpId) (enabled iso : Bool),
    Completes (.configureInEndpoint ep.val enabled.toNat iso.toNat) s 4 [0#32]
      { s with epInEnable := setEpBit (s.epInEnable &&& 0xFFF#32) ep enabled,
               inIso := setEpBit (s.inIso &&& 0xFFF#32) ep iso })

/-- `set_ep_stalling` (R222): bit ep of both stall bitmaps. `DEV` may clear stalls (R312): without
`SETUP_CLEARS_STALL` the bitmaps are exact whatever `DEV` does, and with it a stall that a SETUP on another endpoint
clears between the read and the write of a bitmap is restored by the write (R391). -/
def Obligations.SetEpStalling : Prop :=
  (∀ p v x, decode p ⟨0x83000000#32, v, x⟩ = .ok (.setEpStalling x.x0 x.x1)) ∧
  (∀ (s : State) (ep : Nat) (on : Bool), 12 ≤ ep → ep < 256 →
    exec (.setEpStalling ep on.toNat) s = .next (s.done 0 [s.params.statusFail])) ∧
  (∀ (s : State) (ep : EpId) (on : Bool),
    Completes (.setEpStalling ep.val on.toNat) s 4 [0#32]
      { s with outStall := setEpBit (s.outStall &&& 0xFFF#32) ep on,
               inStall := setEpBit (s.inStall &&& 0xFFF#32) ep on } ∧
    (∀ t, exec (.setEpStalling ep.val on.toNat) s = .next t → s.params.setupClearsStall = false →
      t.outStall = setEpBit (s.outStall &&& 0xFFF#32) ep on ∧ t.inStall = setEpBit (s.inStall &&& 0xFFF#32) ep on) ∧
    (∀ t (ep' : EpId) n image cancel outToggle inToggle, ep' ≠ ep →
      exec (.setEpStalling ep.val on.toNat) s = .next t →
      (s.sched = [[], [.rxSetup ep' n image cancel outToggle inToggle]] →
        epBit t.outStall ep' = epBit s.outStall ep') ∧
      (s.sched = [[], [], [], [.rxSetup ep' n image cancel outToggle inToggle]] →
        epBit t.inStall ep' = epBit s.inStall ep')))

/-- `set_device_address` (R223): DeviceAddress is replaced, Enable kept; an address of 0x80 or more fails. -/
def Obligations.SetDeviceAddress : Prop :=
  (∀ p v x, decode p ⟨0x84000000#32, v, x⟩ = .ok (.setDeviceAddress x.x0)) ∧
  (∀ (s : State) (address : Nat), 128 ≤ address → address < 256 →
    exec (.setDeviceAddress address) s = .next (s.done 0 [s.params.statusFail])) ∧
  (∀ (s : State) (address : Nat), address < 128 →
    Completes (.setDeviceAddress address) s 2 [0#32]
      { s with usbctrl := (s.usbctrl &&& 1#32) ||| (BitVec.ofNat 32 address <<< 16) })

/-- `connect`, `disconnect` and `connected` (R240, R241, R242). -/
def Obligations.ConnectDisconnectConnected : Prop :=
  (∀ p v x, decode p ⟨0x85000000#32, v, x⟩ = .ok .connect ∧ decode p ⟨0x86000000#32, v, x⟩ = .ok .disconnect ∧
    decode p ⟨0x87000000#32, v, x⟩ = .ok .connected) ∧
  ∀ s : State,
    Completes .connect s 2 [] { s with usbctrl := (s.usbctrl &&& 0x007F0000#32) ||| 1#32 } ∧
    Completes .disconnect s 2 [] { s with usbctrl := s.usbctrl &&& 0x007F0000#32 } ∧
    Completes .connected s 1 [if s.usbctrl.getLsbD 0 then 1#32 else 0#32] s

/-- `interrupt_enable` and `interrupt_disable` (R244, R245): pending bits stay, whatever `DEV` does, whose steps only
set bits of INTR_STATE (R326). -/
def Obligations.InterruptEnableDisable : Prop :=
  (∀ p v x, decode p ⟨0x8E000000#32, v, x⟩ = .ok (.interruptEnable x.x0) ∧
    decode p ⟨0x8F000000#32, v, x⟩ = .ok (.interruptDisable x.x0)) ∧
  ∀ (s : State) (mask : Nat), mask < 4294967296 →
    Completes (.interruptEnable mask) s 2 []
      { s with intrEnable := (s.intrEnable ||| BitVec.ofNat 32 mask) &&& 0x3FFFF#32 } ∧
    Completes (.interruptDisable mask) s 2 []
      { s with intrEnable := (s.intrEnable &&& ~~~(BitVec.ofNat 32 mask)) &&& 0x3FFFF#32 } ∧
    (∀ t : State, exec (.interruptEnable mask) s = .next t ∨ exec (.interruptDisable mask) s = .next t →
      ∀ i < 32, s.intrState.getLsbD i = true → t.intrState.getLsbD i = true)

/-- An operation is refused for an operand that does not fit exactly where one does not fit (R116). -/
def Obligations.BadOperands : Prop :=
  ∀ (i : Instr) (s : State), i.wellFormed = false ↔ exec i s = .refused (.badOperand s.asRefused)

/-- `supply_buffers` with no `DEV` step in it (R200): in ascending order the free ids go to AVSETUP until it is full,
the next ones to AVOUT until that is full, and the rest come back; with the transactions counted. -/
def Obligations.SupplyBuffersQuiet : Prop :=
  (∀ p v x, decode p ⟨0x88000000#32, v, x⟩ = .ok (.supplyBuffers x.x0)) ∧
  ∀ (s : State) (bitmap : Nat), bitmap < 4294967296 → s.Quiet → s.params.Ok → s.QueuesInRange →
    (∀ b : BufId, bitmap.testBit b.val = true → s.ownerOf b = .sw) →
    let ids := (List.finRange 32).filter fun b => bitmap.testBit b.val
    let room := s.params.avSetupCap - s.avSetup.length
    let setup := ids.take room
    let out := (ids.drop room).take (s.params.avOutCap - s.avOut.length)
    let rest := ids.drop (room + (s.params.avOutCap - s.avOut.length))
    ∃ t m, exec (.supplyBuffers bitmap) s = .next t ∧
      t = ({ s with avSetup := s.avSetup ++ setup, avOut := s.avOut ++ out, owner := t.owner } : State).done
        (2 * setup.length + 3 * out.length + (if rest = [] then 0 else 2)) [m] ∧
      (∀ b : BufId, t.ownerOf b = if b ∈ setup ∨ b ∈ out then .hw else s.ownerOf b) ∧
      (∀ b : BufId, m.getLsbD b.val = decide (b ∈ rest))

/-- `supply_buffers` whatever `DEV` does, for a caller that meets R201 (R200, R202): it completes; a buffer whose bit
was clear keeps its owner and its bit; a buffer whose bit it clears is now hardware's, and no other changes owner; of
the fields `DEV` never writes nothing else changes; and no AvailableBufferOverflow occurs. -/
def Obligations.SupplyBuffersAssignsOnlyFree : Prop :=
  ∀ (s : State) (bitmap : Nat), bitmap < 4294967296 → s.params.Ok → s.QueuesInRange →
    (∀ b : BufId, bitmap.testBit b.val = true → s.ownerOf b = .sw) →
    ∃ t m, exec (.supplyBuffers bitmap) s = .next t ∧
      t.swPart = (({ s with owner := t.owner } : State).done (t.pc.t - s.pc.t) [m]).swPart ∧ s.pc.t ≤ t.pc.t ∧
      (∀ b : BufId, m.getLsbD b.val = true → bitmap.testBit b.val = true) ∧
      (∀ b : BufId, t.ownerOf b =
        if bitmap.testBit b.val = true ∧ m.getLsbD b.val = false then .hw else s.ownerOf b) ∧
      (∀ i < 32, t.intrState.getLsbD i = true → s.intrState.getLsbD i = true ∨ s.sched ≠ [])

/-- `transfer_to_device` (R290), whatever `DEV` does: bytes 0..n-1 of the buffer are the caller's, the padding of the
last word is 0, the buffer's other bytes and every other buffer keep theirs, in ⌈n/4⌉ transactions (R294). -/
def Obligations.TransferToDevice : Prop :=
  (∀ p v x, decode p ⟨0x8C000000#32, v, x⟩ = .ok (.transferToDevice x.x0 x.x1 x.x2)) ∧
  (∀ (s : State) (buf : BufId) (data : Nat), data < 4294967296 →
    exec (.transferToDevice buf.val data 0) s = .next (s.done 0 [])) ∧
  (∀ (s : State) (buf : BufId) (data n : Nat), n ≤ 64 → data < 4294967296 → data % 4 = 0 → s.HasBytes data n →
    s.Owned → s.ownerOf buf = .sw →
    ∃ t, exec (.transferToDevice buf.val data n) s = .next t ∧
      t.swPart = (s.done (copyCount n) []).swPart ∧
      (∀ j : ByteIx, t.bufByte buf j = if j.val < n then s.memByte (data + j.val)
        else if j.val < 4 * copyCount n then 0#8 else s.bufByte buf j) ∧
      (s.Quiet → t = ({ s with bufMem := t.bufMem } : State).done (copyCount n) [] ∧
        ∀ (b : BufId) (j : ByteIx), b ≠ buf → t.bufByte b j = s.bufByte b j))

/-- `transfer_from_device` (R291), whatever `DEV` does: exactly the n bytes from `data` on are written, with the
buffer's bytes, in ⌈n/4⌉ transactions (R294). -/
def Obligations.TransferFromDevice : Prop :=
  (∀ p v x, decode p ⟨0x8D000000#32, v, x⟩ = .ok (.transferFromDevice x.x0 x.x1 x.x2)) ∧
  (∀ (s : State) (buf : BufId) (data : Nat), data < 4294967296 →
    exec (.transferFromDevice buf.val data 0) s = .next (s.done 0 [])) ∧
  (∀ (s : State) (buf : BufId) (data n : Nat), n ≤ 64 → data < 4294967296 → data % 4 = 0 → s.HasBytes data n →
    s.Owned → s.ownerOf buf = .sw → Memory.wf s.mem = true →
    ∃ t, exec (.transferFromDevice buf.val data n) s = .next t ∧
      t.swPart = (({ s with mem := t.mem } : State).done (copyCount n) []).swPart ∧
      (∀ j : ByteIx, j.val < n → t.memByte (data + j.val) = s.bufByte buf j) ∧
      (∀ a : Nat, a < data ∨ data + n ≤ a → t.memByte a = s.memByte a) ∧
      (s.Quiet → t = ({ s with mem := t.mem } : State).done (copyCount n) []))

/-- Where the copies stop (R290, R291, R81, R343): a buffer of 32 or more or a size over 64, then a data address that is
not word-aligned, both before any transaction; then, with no `DEV` step, a hardware-owned buffer at the first access,
and the first byte outside the caller's memory, at any place of the copy, its trailing bytes included. Then the copy is
stuck with all that came before it done. A word that lies partly outside is stuck whole, and a trailing byte by itself
(log 27, DEDUCED): `landed` is the number of bytes that reach the caller's memory. -/
def Obligations.TransferStops : Prop :=
  ∀ (s : State) (buf data n : Nat), buf < 256 → data < 4294967296 → n < 256 →
    (32 ≤ buf ∨ 64 < n →
      exec (.transferToDevice buf data n) s = .fault (.argumentRange (s.asFaulted .argumentRange)) ∧
      exec (.transferFromDevice buf data n) s = .fault (.argumentRange (s.asFaulted .argumentRange))) ∧
    (buf < 32 → n ≤ 64 → 0 < n → data % 4 ≠ 0 →
      exec (.transferToDevice buf data n) s = .fault (.misalignedMemory (s.asFaulted .misalignedMemory)) ∧
      exec (.transferFromDevice buf data n) s = .fault (.misalignedMemory (s.asFaulted .misalignedMemory))) ∧
    (buf < 32 → n ≤ 64 → 0 < n → data % 4 = 0 → s.Quiet → s.ownerOf (.ofNat 32 buf) = .hw →
      (s.HasBytes data (min n 4) → exec (.transferToDevice buf data n) s =
        .fault (.ownershipViolation (s.asFaulted .ownershipViolation))) ∧
      (¬s.HasBytes data (min n 4) → exec (.transferToDevice buf data n) s = .fault (.outsideMemory s)) ∧
      exec (.transferFromDevice buf data n) s = .fault (.ownershipViolation (s.asFaulted .ownershipViolation))) ∧
    (buf < 32 → n ≤ 64 → data % 4 = 0 → s.Quiet → s.ownerOf (.ofNat 32 buf) = .sw →
      ∀ m < n, s.HasBytes data m → inMemory s.params (data + m) = false →
      let landed := if m < 4 * (n / 4) then 4 * (m / 4) else m
      (∃ t, exec (.transferToDevice buf data n) s = .fault (.outsideMemory t) ∧
        t = ({ s with bufMem := t.bufMem } : State).done (m / 4) s.results ∧
        ∀ (b : BufId) (j : ByteIx), t.bufByte b j =
          if b.val = buf ∧ j.val < 4 * (m / 4) then s.memByte (data + j.val) else s.bufByte b j) ∧
      (Memory.wf s.mem = true → ∃ t, exec (.transferFromDevice buf data n) s = .fault (.outsideMemory t) ∧
        t = ({ s with mem := t.mem } : State).done (m / 4 + 1) s.results ∧
        (∀ j : ByteIx, j.val < landed → t.memByte (data + j.val) = s.bufByte (.ofNat 32 buf) j) ∧
        ∀ a : Nat, a < data ∨ data + landed ≤ a → t.memByte a = s.memByte a))

/-- The round trip (R292): N bytes copied to a software-owned buffer and, after any steps of `DEV`, copied back are the
original bytes, for every N up to 64. -/
def Obligations.CopyRoundTrip : Prop :=
  ∀ (s : State) (buf : BufId) (d1 d2 n : Nat) (between : List DevStep), n ≤ 64 →
    d1 < 4294967296 → d1 % 4 = 0 → s.HasBytes d1 n → d2 < 4294967296 → d2 % 4 = 0 → s.HasBytes d2 n →
    s.Owned → s.ownerOf buf = .sw → Memory.wf s.mem = true →
    ∃ t u, exec (.transferToDevice buf.val d1 n) s = .next t ∧
      exec (.transferFromDevice buf.val d2 n) (between.foldl devTake t) = .next u ∧
      ∀ j < n, u.memByte (d2 + j) = s.memByte (d1 + j)

/-- `send_packet` (R260), whatever `DEV` does, for a caller that meets R261: the copy, the IN record with Ready, the
handoff. Pending is kept, unless it was 1: the second write then makes it free (R176, log 8). -/
def Obligations.SendPacket : Prop :=
  (∀ p v x, decode p ⟨0x89000000#32, v, x⟩ = .ok (.sendPacket x.x0 x.x1 x.x2 x.x3)) ∧
  ∀ (s : State) (buf : BufId) (ep : EpId) (data n : Nat), n ≤ 64 → data < 4294967296 →
    (0 < n → data % 4 = 0) → s.HasBytes data n → s.Owned → s.ownerOf buf = .sw →
    readyBit (s.configOf ep) = false → sendingBit (s.configOf ep) = false → s.inOwnOf ep = none →
    let pending := pendingBit (s.configOf ep)
    let after : State :=
      { s with owner := s.owner.set buf.val .hw, inOwn := s.inOwn.set ep.val (some buf),
               draws := s.draws + (if pending then 1 else 0) }
    ∃ t, exec (.sendPacket buf.val ep.val data n) s = .next t ∧
      t.swPart = (after.done (copyCount n + 3) [0#32]).swPart ∧
      t.configOf ep = configInWord buf.val n true |||
        (if pending && Config.freeBool s.draws then 0x40000000#32 else 0#32) ∧
      (∀ j : ByteIx, t.bufByte buf j = if j.val < n then s.memByte (data + j.val)
        else if j.val < 4 * copyCount n then 0#8 else s.bufByte buf j) ∧
      (s.Quiet →
        t = ({ after with bufMem := t.bufMem, configIn := s.configIn.set ep.val (t.configOf ep) } : State).done
          (copyCount n + 3) [0#32] ∧
        ∀ (b : BufId) (j : ByteIx), b ≠ buf → t.bufByte b j = s.bufByte b j)

/-- Where `send_packet` stops (R260, R343). The range checks come first, then, for a packet with data, the alignment of
its address, both before any transaction. Whatever stops the copy stops `send_packet` in the same state. With no `DEV`
step, a hardware-owned buffer faults at the first buffer write, or, for a packet without data, at the Ready write, after
BufferId and Size are stored; and after the copy, which stays done, a busy IN record is refused and an uncollected
completion faults. -/
def Obligations.SendPacketStops : Prop :=
  (∀ (s : State) (buf ep data n : Nat), buf < 256 → ep < 256 → data < 4294967296 → n < 256 →
    32 ≤ buf ∨ 12 ≤ ep ∨ 64 < n →
    exec (.sendPacket buf ep data n) s = .fault (.argumentRange (s.asFaulted .argumentRange))) ∧
  (∀ (s : State) (buf : BufId) (ep : EpId) (data n : Nat), data < 4294967296 → 0 < n → n ≤ 64 → data % 4 ≠ 0 →
    exec (.sendPacket buf.val ep.val data n) s = .fault (.misalignedMemory (s.asFaulted .misalignedMemory))) ∧
  (∀ (s : State) (buf : BufId) (ep : EpId) (data n : Nat) (f : Fault), data < 4294967296 → n ≤ 64 →
    exec (.transferToDevice buf.val data n) s = .fault f → exec (.sendPacket buf.val ep.val data n) s = .fault f) ∧
  (∀ (s : State) (buf : BufId) (ep : EpId) (data n : Nat), data < 4294967296 → 0 < n → n ≤ 64 → data % 4 = 0 →
    s.HasBytes data (min n 4) → s.Quiet → s.ownerOf buf = .hw →
    exec (.sendPacket buf.val ep.val data n) s = .fault (.ownershipViolation (s.asFaulted .ownershipViolation))) ∧
  (∀ (s : State) (buf : BufId) (ep : EpId) (data n : Nat), data < 4294967296 → n ≤ 64 →
    (0 < n → data % 4 = 0 ∧ s.ownerOf buf = .sw) → s.HasBytes data n → s.Quiet →
    let busy := readyBit (s.configOf ep) || sendingBit (s.configOf ep)
    let copied (t : State) : Prop := t = ({ s with bufMem := t.bufMem } : State).done (copyCount n) s.results ∧
      ∀ (b : BufId) (j : ByteIx), t.bufByte b j =
        if b = buf ∧ j.val < n then s.memByte (data + j.val)
        else if b = buf ∧ j.val < 4 * copyCount n then 0#8 else s.bufByte b j
    (busy = true → ∃ t, copied t ∧
      exec (.sendPacket buf.val ep.val data n) s = .refused (.inTransferBusy t.asRefused)) ∧
    (busy = false → s.inOwnOf ep ≠ none → ∃ t, copied t ∧
      exec (.sendPacket buf.val ep.val data n) s =
        .fault (.uncollectedCompletion (t.asFaulted .uncollectedCompletion))) ∧
    (busy = false → s.inOwnOf ep = none → n = 0 → s.ownerOf buf = .hw →
      ∃ t, exec (.sendPacket buf.val ep.val data n) s = .fault (.doubleHandoff t) ∧
        t.configIn = s.configIn.set ep.val
          (configInWord buf.val 0 false ||| (if pendingBit (s.configOf ep) then 0x40000000#32 else 0#32)) ∧
        t.owner = s.owner ∧ t.inOwn = s.inOwn))

/-- `packet_collected` (R262, R263): it always completes; whatever `DEV` does after its read, the lowest endpoint whose
bit the read sees is reported with the buffer of its IN record; with no `DEV` step, exactly that bit is cleared and
every buffer whose bit was set is software's. -/
def Obligations.PacketCollected : Prop :=
  (∀ p v x, decode p ⟨0x8A000000#32, v, x⟩ = .ok .packetCollected) ∧
  (∀ s : State, ∃ t, exec .packetCollected s = .next t ∧
    t.swPart = (({ s with owner := t.owner, inOwn := t.inOwn } : State).done (t.pc.t - s.pc.t) t.results).swPart ∧
    ((devPoint s).inSent &&& 0xFFF#32 = 0#32 → t.results = [s.params.statusFail] ∧ t.pc.t = s.pc.t + 1) ∧
    (∀ e : EpId, epBit (devPoint s).inSent e = true → (∀ e' < e, epBit (devPoint s).inSent e' = false) →
      t.results = [0#32, BitVec.ofNat 32 e.val, (s.configOf e) &&& 0x1F#32] ∧ t.pc.t = s.pc.t + 3)) ∧
  (∀ s : State, s.Quiet → s.inSent &&& 0xFFF#32 = 0#32 →
    exec .packetCollected s = .next (s.done 1 [s.params.statusFail])) ∧
  (∀ (s : State) (e : EpId), s.Quiet → epBit s.inSent e = true → (∀ e' < e, epBit s.inSent e' = false) →
    ∃ t, exec .packetCollected s = .next t ∧
      t = ({ s with inSent := s.inSent &&& ~~~(bit e.val), owner := t.owner, inOwn := t.inOwn } : State).done 3
        [0#32, BitVec.ofNat 32 e.val, (s.configOf e) &&& 0x1F#32] ∧
      (∀ e' : EpId, t.inOwnOf e' = if epBit s.inSent e' then none else s.inOwnOf e') ∧
      (∀ b : BufId, t.ownerOf b =
        if ∃ e' : EpId, epBit s.inSent e' = true ∧ s.inOwnOf e' = some b then .sw else s.ownerOf b))

/-- `recv_packet` with no `DEV` step in it (R264): an empty RX fails after one read; otherwise the head is popped, its
buffer is software's again, exactly its bytes are copied to `data`, and its fields are the results. -/
def Obligations.RecvPacketQuiet : Prop :=
  (∀ p v x, decode p ⟨0x8B000000#32, v, x⟩ = .ok (.recvPacket x.x0)) ∧
  ∀ (s : State) (data : Nat), data < 4294967296 → s.Quiet → s.params.Ok → s.QueuesInRange →
    Memory.wf s.mem = true →
    (s.rx = [] → exec (.recvPacket data) s = .next (s.done 1 [s.params.statusFail])) ∧
    (∀ (e : RxEntry) (rest : List RxEntry), s.rx = e :: rest → (0 < e.size.toNat → data % 4 = 0) →
      s.HasBytes data e.size.toNat →
      ∃ t, exec (.recvPacket data) s = .next t ∧
        t = ({ s with rx := rest, owner := s.owner.set e.buf.val .sw, mem := t.mem } : State).done
          (2 + copyCount e.size.toNat)
          [0#32, e.ep.setWidth 32, BitVec.ofNat 32 e.buf.val, e.size.setWidth 32, flag e.setup] ∧
        (∀ j : ByteIx, j.val < e.size.toNat → t.memByte (data + j.val) = s.bufByte e.buf j) ∧
        (∀ a : Nat, a < data ∨ data + e.size.toNat ≤ a → t.memByte a = s.memByte a))

/-- `recv_packet` from every state that meets the machine's invariant, whatever `DEV` does (R264, R265): with 64
word-aligned bytes of the caller's memory it always completes, so no HardwareInvariant occurs; it fails exactly when RX
is empty at its first read, and else it delivers the packet that is then at the head of RX. -/
def Obligations.RecvPacketCompletes : Prop :=
  ∀ (s : State) (data : Nat), s.Inv → data < 4294967296 → data % 4 = 0 → s.HasBytes data 64 →
    ∃ t, exec (.recvPacket data) s = .next t ∧
      ((devPoint s).rx = [] → t.results = [s.params.statusFail] ∧ t.mem = s.mem) ∧
      (∀ (e : RxEntry) (rest : List RxEntry), (devPoint s).rx = e :: rest →
        t.results = [0#32, e.ep.setWidth 32, BitVec.ofNat 32 e.buf.val, e.size.setWidth 32, flag e.setup] ∧
        t.ownerOf e.buf = .sw ∧
        (∀ j : ByteIx, j.val < e.size.toNat → t.memByte (data + j.val) = (devPoint s).bufByte e.buf j) ∧
        (∀ a : Nat, a < data ∨ data + e.size.toNat ≤ a → t.memByte a = s.memByte a))

/-- Where `recv_packet` stops, with no `DEV` step (R264): a misaligned destination faults after the pop, an entry no
`DEV` step makes is a HardwareInvariant fault, and whatever stops the copy stops `recv_packet` in the same state. -/
def Obligations.RecvPacketStops : Prop :=
  ∀ (s : State) (data : Nat) (e : RxEntry) (rest : List RxEntry), data < 4294967296 → s.Quiet →
    s.avOut.length < 16 → s.avSetup.length < 8 → s.rx.length < 16 → s.rx = e :: rest →
    let popped : State := ({ s with rx := rest, owner := s.owner.set e.buf.val .sw } : State).done 2 s.results
    (64 < e.size.toNat ∨ 12 ≤ e.ep.toNat →
      exec (.recvPacket data) s = .fault (.hardwareInvariant (popped.asFaulted .hardwareInvariant))) ∧
    (0 < e.size.toNat → e.size.toNat ≤ 64 → e.ep.toNat < 12 → data % 4 ≠ 0 →
      exec (.recvPacket data) s = .fault (.misalignedMemory (popped.asFaulted .misalignedMemory))) ∧
    (0 < e.size.toNat → e.size.toNat ≤ 64 → e.ep.toNat < 12 → ∀ f : Fault,
      exec (.transferFromDevice e.buf.val data e.size.toNat) popped = .fault f →
      exec (.recvPacket data) s = .fault f)

/-! ### The link engine -/

/-- `LINK_RX_SETUP` (R310, R312, R315, R316): when it can be taken, and everything it does. -/
def Obligations.LinkRxSetup : Prop :=
  ∀ (s : State) (ep : EpId) (n : Fin 65) (image : Vector Byte 64) (cancel outToggle inToggle : Bool),
    s.isHalted = false →
    ((devStep (.rxSetup ep n image cancel outToggle inToggle) s).isSome = true ↔
      s.usbctrl.getLsbD 0 = true ∧ epBit s.epOutEnable ep = true ∧ epBit s.rxEnableSetup ep = true ∧
        s.avSetup ≠ [] ∧ s.rx.length < s.params.rxCap) ∧
    ∀ (t : State) (b : BufId) (rest : List BufId), s.avSetup = b :: rest →
      devStep (.rxSetup ep n image cancel outToggle inToggle) s = some t →
      t = { s with
        avSetup := rest
        bufMem := s.bufMem.set b.val image
        rx := s.rx ++ [⟨b, BitVec.ofNat 7 n.val, true, BitVec.ofNat 4 ep.val⟩]
        intrState := s.intrState ||| bit (s.params.bitOf .packetReceived).val
          ||| (if s.rx.length + 1 = s.params.rxCap then bit (s.params.bitOf .receiveFull).val else 0#32)
          ||| (if rest = [] then bit (s.params.bitOf .availableSetupEmpty).val else 0#32)
        outStall := if s.params.setupClearsStall then s.outStall &&& ~~~(bit ep.val) else s.outStall
        inStall := if s.params.setupClearsStall then s.inStall &&& ~~~(bit ep.val) else s.inStall
        configIn := if readyBit (s.configOf ep) && !sendingBit (s.configOf ep) && cancel then
            s.configIn.set ep.val ((s.configOf ep &&& 0x7FFFFFFF#32) ||| 0x40000000#32) else s.configIn
        outToggle := setEpBit s.outToggle ep outToggle
        inToggle := setEpBit s.inToggle ep inToggle }

/-- `LINK_RX_OUT` (R311, R316): when it can be taken, and everything it does. -/
def Obligations.LinkRxOut : Prop :=
  ∀ (s : State) (ep : EpId) (n : Fin 65) (image : Vector Byte 64) (outToggle : Bool), s.isHalted = false →
    ((devStep (.rxOut ep n image outToggle) s).isSome = true ↔
      s.usbctrl.getLsbD 0 = true ∧ epBit s.epOutEnable ep = true ∧ epBit s.rxEnableOut ep = true ∧
        epBit s.outStall ep = false ∧ s.avOut ≠ [] ∧ s.rx.length < s.params.rxCap) ∧
    ∀ (t : State) (b : BufId) (rest : List BufId), s.avOut = b :: rest →
      devStep (.rxOut ep n image outToggle) s = some t →
      t = { s with
        avOut := rest
        bufMem := s.bufMem.set b.val image
        rx := s.rx ++ [⟨b, BitVec.ofNat 7 n.val, false, BitVec.ofNat 4 ep.val⟩]
        intrState := s.intrState ||| bit (s.params.bitOf .packetReceived).val
          ||| (if s.rx.length + 1 = s.params.rxCap then bit (s.params.bitOf .receiveFull).val else 0#32)
          ||| (if rest = [] then bit (s.params.bitOf .availableOutEmpty).val else 0#32)
        outToggle := setEpBit s.outToggle ep outToggle }

/-- `LINK_IN_START`, `LINK_IN_COMPLETE` and `LINK_IN_FAIL` (R313, R314, R318): when they can be taken, and everything
they do. -/
def Obligations.LinkInTransmission : Prop :=
  ∀ (s : State) (ep : EpId) (pending inToggle err : Bool), s.isHalted = false →
    let c := s.configOf ep
    let held : Word := c &&& 0x1FFFFFFF#32
    let drawn : Word := if pending then 0x40000000#32 else 0#32
    let entry (acked : Bool) : TxEntry :=
      { ep := ep, bytes := (List.range (c.extractLsb' 8 7).toNat).filterMap fun j =>
          (s.bufMem[bufIdOf c])[j]?, acked := acked }
    (s.usbctrl.getLsbD 0 = true → epBit s.epInEnable ep = true → epBit s.inStall ep = false → readyBit c = true →
      sendingBit c = false →
      devStep (.inStart ep pending) s =
        some { s with configIn := s.configIn.set ep.val (held ||| 0xA0000000#32 ||| drawn) }) ∧
    (¬(s.usbctrl.getLsbD 0 = true ∧ epBit s.epInEnable ep = true ∧ epBit s.inStall ep = false ∧ readyBit c = true ∧
      sendingBit c = false) → devStep (.inStart ep pending) s = none) ∧
    (sendingBit c = true →
      devStep (.inComplete ep pending inToggle) s =
        some { s with txLog := s.txLog ++ [entry true]
                      configIn := s.configIn.set ep.val (held ||| drawn)
                      inSent := s.inSent ||| bit ep.val
                      inToggle := setEpBit s.inToggle ep inToggle
                      intrState := s.intrState ||| bit (s.params.bitOf .packetSent).val }) ∧
    (sendingBit c = false → devStep (.inComplete ep pending inToggle) s = none) ∧
    (sendingBit c = true → epBit s.inIso ep = false →
      devStep (.inFail ep err pending) s =
        some { s with txLog := s.txLog ++ [entry false]
                      configIn := s.configIn.set ep.val (held ||| (c &&& 0x80000000#32) ||| drawn)
                      intrState := s.intrState |||
                        (if err then bit (s.params.bitOf .linkInError).val else 0#32) }) ∧
    (sendingBit c = false ∨ epBit s.inIso ep = true → devStep (.inFail ep err pending) s = none)

/-- `LINK_EVENT`, `LINK_SOF` and `LINK_LEVEL` (R319, R320, R321): when they can be taken, and everything they do. -/
def Obligations.LinkBusEvents : Prop :=
  ∀ s : State, s.isHalted = false →
    let raised (src : IntrSource) : Word := s.intrState ||| bit (s.params.bitOf src).val
    let enabled := s.usbctrl.getLsbD 0
    (∀ ls : BitVec 3,
      devStep (.event .disconnected ls) s =
        some { s with linkState := ls, intrState := raised .disconnected, sense := false } ∧
      devStep (.event .powered ls) s =
        some { s with linkState := ls, intrState := raised .powered, sense := true } ∧
      (enabled = true →
        devStep (.event .hostLost ls) s =
          some { s with linkState := ls, intrState := raised .hostLost, hostLost := true } ∧
        devStep (.event .linkReset ls) s = some { s with linkState := ls, intrState := raised .linkReset } ∧
        devStep (.event .linkSuspend ls) s = some { s with linkState := ls, intrState := raised .linkSuspend } ∧
        devStep (.event .linkResume ls) s = some { s with linkState := ls, intrState := raised .linkResume } ∧
        devStep (.event .linkInError ls) s = some { s with linkState := ls, intrState := raised .linkInError } ∧
        devStep (.event .linkOutError ls) s = some { s with linkState := ls, intrState := raised .linkOutError } ∧
        devStep (.event .receiveCrcError ls) s =
          some { s with linkState := ls, intrState := raised .receiveCrcError } ∧
        devStep (.event .receivePidError ls) s =
          some { s with linkState := ls, intrState := raised .receivePidError } ∧
        devStep (.event .receiveBitstuffError ls) s =
          some { s with linkState := ls, intrState := raised .receiveBitstuffError })) ∧
    (∀ f : BitVec 11, enabled = true →
      devStep (.sof f) s = some { s with frame := f, hostLost := false, intrState := raised .frameUpdated }) ∧
    (enabled = false → (∀ f, devStep (.sof f) s = none) ∧
      ∀ kind ls, kind ≠ .disconnected → kind ≠ .powered → devStep (.event kind ls) s = none) ∧
    (∀ (src : LevelSource) (i : IntrSource) (condition : Prop),
      (src, i, condition) ∈ [(LevelSource.packetReceived, IntrSource.packetReceived, 0 < s.rx.length),
        (.packetSent, .packetSent, s.inSent ≠ 0#32), (.availableOutEmpty, .availableOutEmpty, s.avOut.length = 0),
        (.availableSetupEmpty, .availableSetupEmpty, s.avSetup.length = 0),
        (.receiveFull, .receiveFull, s.rx.length = s.params.rxCap)] →
      (condition → devStep (.level src) s = some { s with intrState := raised i }) ∧
      (¬condition → devStep (.level src) s = none))

/-- Enable gating (R317), and no step in a halted state (R325): without Enable the steps that need it are not taken,
while a transmission in flight can still end and the level steps still apply; and no step at all is taken once a fault
is recorded or REFUSED is set. -/
def Obligations.LinkGating : Prop :=
  (∀ s : State, s.usbctrl.getLsbD 0 = false →
    (∀ ep n image cancel outToggle inToggle, devStep (.rxSetup ep n image cancel outToggle inToggle) s = none) ∧
    (∀ ep n image outToggle, devStep (.rxOut ep n image outToggle) s = none) ∧
    (∀ ep pending, devStep (.inStart ep pending) s = none) ∧
    (∀ f, devStep (.sof f) s = none) ∧
    (∀ kind ls, kind ≠ .disconnected → kind ≠ .powered → devStep (.event kind ls) s = none) ∧
    (s.isHalted = false →
      (∀ ep pending inToggle, sendingBit (s.configOf ep) = true →
        (devStep (.inComplete ep pending inToggle) s).isSome = true) ∧
      (∀ ep err pending, sendingBit (s.configOf ep) = true → epBit s.inIso ep = false →
        (devStep (.inFail ep err pending) s).isSome = true) ∧
      (∀ src : LevelSource, src.active s = true → (devStep (.level src) s).isSome = true))) ∧
  (∀ (s : State) (d : DevStep), s.faults ≠ [] ∨ s.refused = true → devStep d s = none)

/-- The closed list of what `DEV` writes (R326): its steps leave every field outside the list alone, only pop AVOUT and
AVSETUP, only append to RX and TXLOG, write only the buffer just popped, clear stalls only under
`SETUP_CLEARS_STALL`, keep CONFIGIN's BufferId and Size and only clear Ready, and only set bits of IN_SENT and
INTR_STATE. -/
def Obligations.LinkWritesOnlyItsList : Prop :=
  ∀ (d : DevStep) (s t : State), devStep d s = some t →
    t.swPart = s.swPart ∧ t.sched = s.sched ∧
    (t.avOut = s.avOut ∨ ∃ b, s.avOut = b :: t.avOut) ∧
    (t.avSetup = s.avSetup ∨ ∃ b, s.avSetup = b :: t.avSetup) ∧
    (∃ new, t.rx = s.rx ++ new ∧ new.length ≤ 1) ∧ (∃ new, t.txLog = s.txLog ++ new ∧ new.length ≤ 1) ∧
    (∀ b : BufId, t.bufMem[b] ≠ s.bufMem[b] → s.avOut = b :: t.avOut ∨ s.avSetup = b :: t.avSetup) ∧
    (s.params.setupClearsStall = false → t.outStall = s.outStall ∧ t.inStall = s.inStall) ∧
    (∀ e : EpId, t.configOf e &&& 0x1FFFFFFF#32 = s.configOf e &&& 0x1FFFFFFF#32 ∧
      (readyBit (t.configOf e) = true → readyBit (s.configOf e) = true) ∧
      (epBit s.inSent e = true → epBit t.inSent e = true)) ∧
    (∀ i < 32, s.intrState.getLsbD i = true → t.intrState.getLsbD i = true)

/-! ### The whole machine -/

/-- A step runs the decoded instruction: when `SW` steps next and its current command decodes to `i`, the step is `i` at
this state, with the command's interleaving point past, `pc.t` 0 and fresh slots before it, and `pc = (op + 1, 0)` after
it (R20, R21, R140). -/
def Obligations.StepRunsDecoded : Prop :=
  ∀ (s : State) (c : Cmd) (i : Instr), s.SwTurn → s.prog[s.pc.op]? = some c → decode s.params c = .ok i →
    step s = andThen (exec i { s with sched := s.sched.tail, pc := ⟨s.pc.op, 0⟩, results := [] }) fun t =>
      .next { t with pc := ⟨t.pc.op + 1, 0⟩ }

/-- The other steps: a command that is no instruction is refused (R112, R119, R195); the `DEV` step at the head of the
schedule is taken, or left out where its guard fails (R325, log 2); a halted state never steps (R140, R325, R345); and
past the end of the list the run of `SW` is over (R21, R396). -/
def Obligations.StepOtherwise : Prop :=
  (∀ (s : State) (c : Cmd), s.SwTurn → s.prog[s.pc.op]? = some c →
    let t : State := { s with sched := s.sched.tail, refused := true }
    (decode s.params c = .error .illegalDescriptor → step s = .refused (.illegalDescriptor t)) ∧
    (decode s.params c = .error .misalignedDeviceAccess → step s = .refused (.misalignedDeviceAccess t)) ∧
    (decode s.params c = .error .subWordAccess → step s = .refused (.subWordAccess t)) ∧
    (decode s.params c = .error .unmappedOffset → step s = .refused (.unmappedOffset t))) ∧
  (∀ (s : State) (d : DevStep) (ds : List DevStep) (rest : List (List DevStep)), s.isHalted = false →
    s.sched = (d :: ds) :: rest →
    step s = .next ((devStep d { s with sched := ds :: rest }).getD { s with sched := ds :: rest })) ∧
  (∀ s : State, s.faults ≠ [] ∨ s.refused = true → step s = .fault (.halted s)) ∧
  (∀ s : State, s.SwTurn → s.prog.length ≤ s.pc.op → step s = .fault (.runEnded s))

/-- Every verdict is recorded (R345, R62): a fault of R345 carries a state with its reason in FAULTS and nothing removed
from it, and a refusal carries a state with REFUSED set; and no step answers notModelled. -/
def Obligations.VerdictsRecorded : Prop :=
  ∀ s : State,
    (∀ f, step s = .fault f → (∀ r, f.reason = some r → r ∈ f.stopped.faults) ∧
      ∀ r ∈ s.faults, r ∈ f.stopped.faults) ∧
    (∀ r, step s = .refused r → ∃ t, r.stopped = some t ∧ t.refused = true)

/-- A next state is a running one (R62, R345): no step that goes on records a verdict, and none changes the parameters
(R8) or the caller's list (R21). -/
def Obligations.NextStateRuns : Prop :=
  ∀ s t : State, step s = .next t →
    t.faults = [] ∧ t.refused = false ∧ t.params = s.params ∧ t.prog = s.prog

/-- The reset state (R380): every value the spec states, its draws left open. The fields that are the model's own or the
caller's (log 2, 4, 6, 8, 11, 15) are not in it. -/
def Obligations.ResetState : Prop :=
  let s := State.reset
  s.intrState = 0#32 ∧ s.intrEnable = 0#32 ∧ s.usbctrl = 0#32 ∧ s.epOutEnable = 0#32 ∧ s.epInEnable = 0#32 ∧
  s.rxEnableSetup = 0#32 ∧ s.rxEnableOut = 0#32 ∧ s.setNakOut = 0#32 ∧ s.inSent = 0#32 ∧ s.outStall = 0#32 ∧
  s.inStall = 0#32 ∧ s.outIso = 0#32 ∧ s.inIso = 0#32 ∧ s.outToggle = 0#32 ∧ s.inToggle = 0#32 ∧
  (∀ e : EpId, s.configOf e = 0#32) ∧ s.phyPinsDrive = 0#32 ∧ s.phyConfig.getLsbD 0 = false ∧
  s.frame = 0#11 ∧ s.hostLost = false ∧ s.linkState = 0#3 ∧ s.avOut = [] ∧ s.avSetup = [] ∧ s.rx = [] ∧
  (∀ b : BufId, s.ownerOf b = .sw) ∧ (∀ e : EpId, s.inOwnOf e = none) ∧ s.faults = [] ∧ s.refused = false ∧
  s.txLog = [] ∧ s.pc = ⟨0, 0⟩ ∧ s.irq = false ∧
  (∃ sense : Bool, s.usbstat = (if sense then 0x80008000#32 else 0x80000000#32))

/-- The machine's invariant holds at reset. -/
def Obligations.InvAtReset : Prop := State.reset.Inv

/-- Every step keeps the machine's invariant: parameters in range, ownership (R61), reserved bits 0, queues within their
capacities, IN records that name the buffer they will return, canonical memory, no verdict. -/
def Obligations.StepKeepsInv : Prop := ∀ s t : State, s.Inv → step s = .next t → t.Inv

/-- Every step keeps the ownership invariant on its own (R61): from every state in which each buffer is in at most one
hardware structure and hardware owns exactly those, whatever else the state holds. -/
def Obligations.StepKeepsOwnership : Prop := ∀ s t : State, s.Owned → step s = .next t → t.Owned

/-- Software never changes a hardware-owned buffer (R389, R192): with no `DEV` step in it, no instruction that completes
changes a byte of a buffer that hardware owned when it began. -/
def Obligations.SoftwareLeavesHardwareBuffers : Prop :=
  ∀ (i : Instr) (s t : State) (b : BufId), s.Quiet → exec i s = .next t → s.ownerOf b = .hw →
    t.bufMem[b] = s.bufMem[b]
end

