-- ==== Sys2Proof/Laws/State.lean ====
section
/-! SUPPORT. One lemma for each field of State under each named update, true by definition, so that no proof unfolds an
update. -/

namespace Sys2Proof.Machine

@[simp] theorem tick_params (s : State) : (s.tick).params = s.params := rfl
@[simp] theorem tick_prog (s : State) : (s.tick).prog = s.prog := rfl
@[simp] theorem tick_pc (s : State) : (s.tick).pc = { s.pc with t := s.pc.t + 1 } := rfl
@[simp] theorem tick_results (s : State) : (s.tick).results = s.results := rfl
@[simp] theorem tick_mem (s : State) : (s.tick).mem = s.mem := rfl
@[simp] theorem tick_intrState (s : State) : (s.tick).intrState = s.intrState := rfl
@[simp] theorem tick_intrEnable (s : State) : (s.tick).intrEnable = s.intrEnable := rfl
@[simp] theorem tick_usbctrl (s : State) : (s.tick).usbctrl = s.usbctrl := rfl
@[simp] theorem tick_epOutEnable (s : State) : (s.tick).epOutEnable = s.epOutEnable := rfl
@[simp] theorem tick_epInEnable (s : State) : (s.tick).epInEnable = s.epInEnable := rfl
@[simp] theorem tick_frame (s : State) : (s.tick).frame = s.frame := rfl
@[simp] theorem tick_hostLost (s : State) : (s.tick).hostLost = s.hostLost := rfl
@[simp] theorem tick_linkState (s : State) : (s.tick).linkState = s.linkState := rfl
@[simp] theorem tick_sense (s : State) : (s.tick).sense = s.sense := rfl
@[simp] theorem tick_rxEnableSetup (s : State) : (s.tick).rxEnableSetup = s.rxEnableSetup := rfl
@[simp] theorem tick_rxEnableOut (s : State) : (s.tick).rxEnableOut = s.rxEnableOut := rfl
@[simp] theorem tick_setNakOut (s : State) : (s.tick).setNakOut = s.setNakOut := rfl
@[simp] theorem tick_inSent (s : State) : (s.tick).inSent = s.inSent := rfl
@[simp] theorem tick_outStall (s : State) : (s.tick).outStall = s.outStall := rfl
@[simp] theorem tick_inStall (s : State) : (s.tick).inStall = s.inStall := rfl
@[simp] theorem tick_configIn (s : State) : (s.tick).configIn = s.configIn := rfl
@[simp] theorem tick_outIso (s : State) : (s.tick).outIso = s.outIso := rfl
@[simp] theorem tick_inIso (s : State) : (s.tick).inIso = s.inIso := rfl
@[simp] theorem tick_outToggle (s : State) : (s.tick).outToggle = s.outToggle := rfl
@[simp] theorem tick_inToggle (s : State) : (s.tick).inToggle = s.inToggle := rfl
@[simp] theorem tick_phyPinsDrive (s : State) : (s.tick).phyPinsDrive = s.phyPinsDrive := rfl
@[simp] theorem tick_phyConfig (s : State) : (s.tick).phyConfig = s.phyConfig := rfl
@[simp] theorem tick_avOut (s : State) : (s.tick).avOut = s.avOut := rfl
@[simp] theorem tick_avSetup (s : State) : (s.tick).avSetup = s.avSetup := rfl
@[simp] theorem tick_rx (s : State) : (s.tick).rx = s.rx := rfl
@[simp] theorem tick_bufMem (s : State) : (s.tick).bufMem = s.bufMem := rfl
@[simp] theorem tick_owner (s : State) : (s.tick).owner = s.owner := rfl
@[simp] theorem tick_inOwn (s : State) : (s.tick).inOwn = s.inOwn := rfl
@[simp] theorem tick_faults (s : State) : (s.tick).faults = s.faults := rfl
@[simp] theorem tick_refused (s : State) : (s.tick).refused = s.refused := rfl
@[simp] theorem tick_txLog (s : State) : (s.tick).txLog = s.txLog := rfl
@[simp] theorem tick_sched (s : State) : (s.tick).sched = s.sched := rfl
@[simp] theorem tick_draws (s : State) : (s.tick).draws = s.draws := rfl

@[simp] theorem give_params (s : State) (r : List Word) : (s.give r).params = s.params := rfl
@[simp] theorem give_prog (s : State) (r : List Word) : (s.give r).prog = s.prog := rfl
@[simp] theorem give_pc (s : State) (r : List Word) : (s.give r).pc = s.pc := rfl
@[simp] theorem give_results (s : State) (r : List Word) : (s.give r).results = r := rfl
@[simp] theorem give_mem (s : State) (r : List Word) : (s.give r).mem = s.mem := rfl
@[simp] theorem give_intrState (s : State) (r : List Word) : (s.give r).intrState = s.intrState := rfl
@[simp] theorem give_intrEnable (s : State) (r : List Word) : (s.give r).intrEnable = s.intrEnable := rfl
@[simp] theorem give_usbctrl (s : State) (r : List Word) : (s.give r).usbctrl = s.usbctrl := rfl
@[simp] theorem give_epOutEnable (s : State) (r : List Word) : (s.give r).epOutEnable = s.epOutEnable := rfl
@[simp] theorem give_epInEnable (s : State) (r : List Word) : (s.give r).epInEnable = s.epInEnable := rfl
@[simp] theorem give_frame (s : State) (r : List Word) : (s.give r).frame = s.frame := rfl
@[simp] theorem give_hostLost (s : State) (r : List Word) : (s.give r).hostLost = s.hostLost := rfl
@[simp] theorem give_linkState (s : State) (r : List Word) : (s.give r).linkState = s.linkState := rfl
@[simp] theorem give_sense (s : State) (r : List Word) : (s.give r).sense = s.sense := rfl
@[simp] theorem give_rxEnableSetup (s : State) (r : List Word) : (s.give r).rxEnableSetup = s.rxEnableSetup := rfl
@[simp] theorem give_rxEnableOut (s : State) (r : List Word) : (s.give r).rxEnableOut = s.rxEnableOut := rfl
@[simp] theorem give_setNakOut (s : State) (r : List Word) : (s.give r).setNakOut = s.setNakOut := rfl
@[simp] theorem give_inSent (s : State) (r : List Word) : (s.give r).inSent = s.inSent := rfl
@[simp] theorem give_outStall (s : State) (r : List Word) : (s.give r).outStall = s.outStall := rfl
@[simp] theorem give_inStall (s : State) (r : List Word) : (s.give r).inStall = s.inStall := rfl
@[simp] theorem give_configIn (s : State) (r : List Word) : (s.give r).configIn = s.configIn := rfl
@[simp] theorem give_outIso (s : State) (r : List Word) : (s.give r).outIso = s.outIso := rfl
@[simp] theorem give_inIso (s : State) (r : List Word) : (s.give r).inIso = s.inIso := rfl
@[simp] theorem give_outToggle (s : State) (r : List Word) : (s.give r).outToggle = s.outToggle := rfl
@[simp] theorem give_inToggle (s : State) (r : List Word) : (s.give r).inToggle = s.inToggle := rfl
@[simp] theorem give_phyPinsDrive (s : State) (r : List Word) : (s.give r).phyPinsDrive = s.phyPinsDrive := rfl
@[simp] theorem give_phyConfig (s : State) (r : List Word) : (s.give r).phyConfig = s.phyConfig := rfl
@[simp] theorem give_avOut (s : State) (r : List Word) : (s.give r).avOut = s.avOut := rfl
@[simp] theorem give_avSetup (s : State) (r : List Word) : (s.give r).avSetup = s.avSetup := rfl
@[simp] theorem give_rx (s : State) (r : List Word) : (s.give r).rx = s.rx := rfl
@[simp] theorem give_bufMem (s : State) (r : List Word) : (s.give r).bufMem = s.bufMem := rfl
@[simp] theorem give_owner (s : State) (r : List Word) : (s.give r).owner = s.owner := rfl
@[simp] theorem give_inOwn (s : State) (r : List Word) : (s.give r).inOwn = s.inOwn := rfl
@[simp] theorem give_faults (s : State) (r : List Word) : (s.give r).faults = s.faults := rfl
@[simp] theorem give_refused (s : State) (r : List Word) : (s.give r).refused = s.refused := rfl
@[simp] theorem give_txLog (s : State) (r : List Word) : (s.give r).txLog = s.txLog := rfl
@[simp] theorem give_sched (s : State) (r : List Word) : (s.give r).sched = s.sched := rfl
@[simp] theorem give_draws (s : State) (r : List Word) : (s.give r).draws = s.draws := rfl

@[simp] theorem setIntr_params (s : State) (src : IntrSource) : (s.setIntr src).params = s.params := rfl
@[simp] theorem setIntr_prog (s : State) (src : IntrSource) : (s.setIntr src).prog = s.prog := rfl
@[simp] theorem setIntr_pc (s : State) (src : IntrSource) : (s.setIntr src).pc = s.pc := rfl
@[simp] theorem setIntr_results (s : State) (src : IntrSource) : (s.setIntr src).results = s.results := rfl
@[simp] theorem setIntr_mem (s : State) (src : IntrSource) : (s.setIntr src).mem = s.mem := rfl
@[simp] theorem setIntr_intrState (s : State) (src : IntrSource) : (s.setIntr src).intrState = s.intrState ||| bit (s.params.bitOf src).val := rfl
@[simp] theorem setIntr_intrEnable (s : State) (src : IntrSource) : (s.setIntr src).intrEnable = s.intrEnable := rfl
@[simp] theorem setIntr_usbctrl (s : State) (src : IntrSource) : (s.setIntr src).usbctrl = s.usbctrl := rfl
@[simp] theorem setIntr_epOutEnable (s : State) (src : IntrSource) : (s.setIntr src).epOutEnable = s.epOutEnable := rfl
@[simp] theorem setIntr_epInEnable (s : State) (src : IntrSource) : (s.setIntr src).epInEnable = s.epInEnable := rfl
@[simp] theorem setIntr_frame (s : State) (src : IntrSource) : (s.setIntr src).frame = s.frame := rfl
@[simp] theorem setIntr_hostLost (s : State) (src : IntrSource) : (s.setIntr src).hostLost = s.hostLost := rfl
@[simp] theorem setIntr_linkState (s : State) (src : IntrSource) : (s.setIntr src).linkState = s.linkState := rfl
@[simp] theorem setIntr_sense (s : State) (src : IntrSource) : (s.setIntr src).sense = s.sense := rfl
@[simp] theorem setIntr_rxEnableSetup (s : State) (src : IntrSource) : (s.setIntr src).rxEnableSetup = s.rxEnableSetup := rfl
@[simp] theorem setIntr_rxEnableOut (s : State) (src : IntrSource) : (s.setIntr src).rxEnableOut = s.rxEnableOut := rfl
@[simp] theorem setIntr_setNakOut (s : State) (src : IntrSource) : (s.setIntr src).setNakOut = s.setNakOut := rfl
@[simp] theorem setIntr_inSent (s : State) (src : IntrSource) : (s.setIntr src).inSent = s.inSent := rfl
@[simp] theorem setIntr_outStall (s : State) (src : IntrSource) : (s.setIntr src).outStall = s.outStall := rfl
@[simp] theorem setIntr_inStall (s : State) (src : IntrSource) : (s.setIntr src).inStall = s.inStall := rfl
@[simp] theorem setIntr_configIn (s : State) (src : IntrSource) : (s.setIntr src).configIn = s.configIn := rfl
@[simp] theorem setIntr_outIso (s : State) (src : IntrSource) : (s.setIntr src).outIso = s.outIso := rfl
@[simp] theorem setIntr_inIso (s : State) (src : IntrSource) : (s.setIntr src).inIso = s.inIso := rfl
@[simp] theorem setIntr_outToggle (s : State) (src : IntrSource) : (s.setIntr src).outToggle = s.outToggle := rfl
@[simp] theorem setIntr_inToggle (s : State) (src : IntrSource) : (s.setIntr src).inToggle = s.inToggle := rfl
@[simp] theorem setIntr_phyPinsDrive (s : State) (src : IntrSource) : (s.setIntr src).phyPinsDrive = s.phyPinsDrive := rfl
@[simp] theorem setIntr_phyConfig (s : State) (src : IntrSource) : (s.setIntr src).phyConfig = s.phyConfig := rfl
@[simp] theorem setIntr_avOut (s : State) (src : IntrSource) : (s.setIntr src).avOut = s.avOut := rfl
@[simp] theorem setIntr_avSetup (s : State) (src : IntrSource) : (s.setIntr src).avSetup = s.avSetup := rfl
@[simp] theorem setIntr_rx (s : State) (src : IntrSource) : (s.setIntr src).rx = s.rx := rfl
@[simp] theorem setIntr_bufMem (s : State) (src : IntrSource) : (s.setIntr src).bufMem = s.bufMem := rfl
@[simp] theorem setIntr_owner (s : State) (src : IntrSource) : (s.setIntr src).owner = s.owner := rfl
@[simp] theorem setIntr_inOwn (s : State) (src : IntrSource) : (s.setIntr src).inOwn = s.inOwn := rfl
@[simp] theorem setIntr_faults (s : State) (src : IntrSource) : (s.setIntr src).faults = s.faults := rfl
@[simp] theorem setIntr_refused (s : State) (src : IntrSource) : (s.setIntr src).refused = s.refused := rfl
@[simp] theorem setIntr_txLog (s : State) (src : IntrSource) : (s.setIntr src).txLog = s.txLog := rfl
@[simp] theorem setIntr_sched (s : State) (src : IntrSource) : (s.setIntr src).sched = s.sched := rfl
@[simp] theorem setIntr_draws (s : State) (src : IntrSource) : (s.setIntr src).draws = s.draws := rfl

@[simp] theorem handOff_params (s : State) (b : BufId) : (s.handOff b).params = s.params := rfl
@[simp] theorem handOff_prog (s : State) (b : BufId) : (s.handOff b).prog = s.prog := rfl
@[simp] theorem handOff_pc (s : State) (b : BufId) : (s.handOff b).pc = s.pc := rfl
@[simp] theorem handOff_results (s : State) (b : BufId) : (s.handOff b).results = s.results := rfl
@[simp] theorem handOff_mem (s : State) (b : BufId) : (s.handOff b).mem = s.mem := rfl
@[simp] theorem handOff_intrState (s : State) (b : BufId) : (s.handOff b).intrState = s.intrState := rfl
@[simp] theorem handOff_intrEnable (s : State) (b : BufId) : (s.handOff b).intrEnable = s.intrEnable := rfl
@[simp] theorem handOff_usbctrl (s : State) (b : BufId) : (s.handOff b).usbctrl = s.usbctrl := rfl
@[simp] theorem handOff_epOutEnable (s : State) (b : BufId) : (s.handOff b).epOutEnable = s.epOutEnable := rfl
@[simp] theorem handOff_epInEnable (s : State) (b : BufId) : (s.handOff b).epInEnable = s.epInEnable := rfl
@[simp] theorem handOff_frame (s : State) (b : BufId) : (s.handOff b).frame = s.frame := rfl
@[simp] theorem handOff_hostLost (s : State) (b : BufId) : (s.handOff b).hostLost = s.hostLost := rfl
@[simp] theorem handOff_linkState (s : State) (b : BufId) : (s.handOff b).linkState = s.linkState := rfl
@[simp] theorem handOff_sense (s : State) (b : BufId) : (s.handOff b).sense = s.sense := rfl
@[simp] theorem handOff_rxEnableSetup (s : State) (b : BufId) : (s.handOff b).rxEnableSetup = s.rxEnableSetup := rfl
@[simp] theorem handOff_rxEnableOut (s : State) (b : BufId) : (s.handOff b).rxEnableOut = s.rxEnableOut := rfl
@[simp] theorem handOff_setNakOut (s : State) (b : BufId) : (s.handOff b).setNakOut = s.setNakOut := rfl
@[simp] theorem handOff_inSent (s : State) (b : BufId) : (s.handOff b).inSent = s.inSent := rfl
@[simp] theorem handOff_outStall (s : State) (b : BufId) : (s.handOff b).outStall = s.outStall := rfl
@[simp] theorem handOff_inStall (s : State) (b : BufId) : (s.handOff b).inStall = s.inStall := rfl
@[simp] theorem handOff_configIn (s : State) (b : BufId) : (s.handOff b).configIn = s.configIn := rfl
@[simp] theorem handOff_outIso (s : State) (b : BufId) : (s.handOff b).outIso = s.outIso := rfl
@[simp] theorem handOff_inIso (s : State) (b : BufId) : (s.handOff b).inIso = s.inIso := rfl
@[simp] theorem handOff_outToggle (s : State) (b : BufId) : (s.handOff b).outToggle = s.outToggle := rfl
@[simp] theorem handOff_inToggle (s : State) (b : BufId) : (s.handOff b).inToggle = s.inToggle := rfl
@[simp] theorem handOff_phyPinsDrive (s : State) (b : BufId) : (s.handOff b).phyPinsDrive = s.phyPinsDrive := rfl
@[simp] theorem handOff_phyConfig (s : State) (b : BufId) : (s.handOff b).phyConfig = s.phyConfig := rfl
@[simp] theorem handOff_avOut (s : State) (b : BufId) : (s.handOff b).avOut = s.avOut := rfl
@[simp] theorem handOff_avSetup (s : State) (b : BufId) : (s.handOff b).avSetup = s.avSetup := rfl
@[simp] theorem handOff_rx (s : State) (b : BufId) : (s.handOff b).rx = s.rx := rfl
@[simp] theorem handOff_bufMem (s : State) (b : BufId) : (s.handOff b).bufMem = s.bufMem := rfl
@[simp] theorem handOff_owner (s : State) (b : BufId) : (s.handOff b).owner = s.owner.set b.val .hw := rfl
@[simp] theorem handOff_inOwn (s : State) (b : BufId) : (s.handOff b).inOwn = s.inOwn := rfl
@[simp] theorem handOff_faults (s : State) (b : BufId) : (s.handOff b).faults = s.faults := rfl
@[simp] theorem handOff_refused (s : State) (b : BufId) : (s.handOff b).refused = s.refused := rfl
@[simp] theorem handOff_txLog (s : State) (b : BufId) : (s.handOff b).txLog = s.txLog := rfl
@[simp] theorem handOff_sched (s : State) (b : BufId) : (s.handOff b).sched = s.sched := rfl
@[simp] theorem handOff_draws (s : State) (b : BufId) : (s.handOff b).draws = s.draws := rfl

@[simp] theorem takeBack_params (s : State) (b : BufId) : (s.takeBack b).params = s.params := rfl
@[simp] theorem takeBack_prog (s : State) (b : BufId) : (s.takeBack b).prog = s.prog := rfl
@[simp] theorem takeBack_pc (s : State) (b : BufId) : (s.takeBack b).pc = s.pc := rfl
@[simp] theorem takeBack_results (s : State) (b : BufId) : (s.takeBack b).results = s.results := rfl
@[simp] theorem takeBack_mem (s : State) (b : BufId) : (s.takeBack b).mem = s.mem := rfl
@[simp] theorem takeBack_intrState (s : State) (b : BufId) : (s.takeBack b).intrState = s.intrState := rfl
@[simp] theorem takeBack_intrEnable (s : State) (b : BufId) : (s.takeBack b).intrEnable = s.intrEnable := rfl
@[simp] theorem takeBack_usbctrl (s : State) (b : BufId) : (s.takeBack b).usbctrl = s.usbctrl := rfl
@[simp] theorem takeBack_epOutEnable (s : State) (b : BufId) : (s.takeBack b).epOutEnable = s.epOutEnable := rfl
@[simp] theorem takeBack_epInEnable (s : State) (b : BufId) : (s.takeBack b).epInEnable = s.epInEnable := rfl
@[simp] theorem takeBack_frame (s : State) (b : BufId) : (s.takeBack b).frame = s.frame := rfl
@[simp] theorem takeBack_hostLost (s : State) (b : BufId) : (s.takeBack b).hostLost = s.hostLost := rfl
@[simp] theorem takeBack_linkState (s : State) (b : BufId) : (s.takeBack b).linkState = s.linkState := rfl
@[simp] theorem takeBack_sense (s : State) (b : BufId) : (s.takeBack b).sense = s.sense := rfl
@[simp] theorem takeBack_rxEnableSetup (s : State) (b : BufId) : (s.takeBack b).rxEnableSetup = s.rxEnableSetup := rfl
@[simp] theorem takeBack_rxEnableOut (s : State) (b : BufId) : (s.takeBack b).rxEnableOut = s.rxEnableOut := rfl
@[simp] theorem takeBack_setNakOut (s : State) (b : BufId) : (s.takeBack b).setNakOut = s.setNakOut := rfl
@[simp] theorem takeBack_inSent (s : State) (b : BufId) : (s.takeBack b).inSent = s.inSent := rfl
@[simp] theorem takeBack_outStall (s : State) (b : BufId) : (s.takeBack b).outStall = s.outStall := rfl
@[simp] theorem takeBack_inStall (s : State) (b : BufId) : (s.takeBack b).inStall = s.inStall := rfl
@[simp] theorem takeBack_configIn (s : State) (b : BufId) : (s.takeBack b).configIn = s.configIn := rfl
@[simp] theorem takeBack_outIso (s : State) (b : BufId) : (s.takeBack b).outIso = s.outIso := rfl
@[simp] theorem takeBack_inIso (s : State) (b : BufId) : (s.takeBack b).inIso = s.inIso := rfl
@[simp] theorem takeBack_outToggle (s : State) (b : BufId) : (s.takeBack b).outToggle = s.outToggle := rfl
@[simp] theorem takeBack_inToggle (s : State) (b : BufId) : (s.takeBack b).inToggle = s.inToggle := rfl
@[simp] theorem takeBack_phyPinsDrive (s : State) (b : BufId) : (s.takeBack b).phyPinsDrive = s.phyPinsDrive := rfl
@[simp] theorem takeBack_phyConfig (s : State) (b : BufId) : (s.takeBack b).phyConfig = s.phyConfig := rfl
@[simp] theorem takeBack_avOut (s : State) (b : BufId) : (s.takeBack b).avOut = s.avOut := rfl
@[simp] theorem takeBack_avSetup (s : State) (b : BufId) : (s.takeBack b).avSetup = s.avSetup := rfl
@[simp] theorem takeBack_rx (s : State) (b : BufId) : (s.takeBack b).rx = s.rx := rfl
@[simp] theorem takeBack_bufMem (s : State) (b : BufId) : (s.takeBack b).bufMem = s.bufMem := rfl
@[simp] theorem takeBack_owner (s : State) (b : BufId) : (s.takeBack b).owner = s.owner.set b.val .sw := rfl
@[simp] theorem takeBack_inOwn (s : State) (b : BufId) : (s.takeBack b).inOwn = s.inOwn := rfl
@[simp] theorem takeBack_faults (s : State) (b : BufId) : (s.takeBack b).faults = s.faults := rfl
@[simp] theorem takeBack_refused (s : State) (b : BufId) : (s.takeBack b).refused = s.refused := rfl
@[simp] theorem takeBack_txLog (s : State) (b : BufId) : (s.takeBack b).txLog = s.txLog := rfl
@[simp] theorem takeBack_sched (s : State) (b : BufId) : (s.takeBack b).sched = s.sched := rfl
@[simp] theorem takeBack_draws (s : State) (b : BufId) : (s.takeBack b).draws = s.draws := rfl

@[simp] theorem setConfig_params (s : State) (e : EpId) (c : Word) : (s.setConfig e c).params = s.params := rfl
@[simp] theorem setConfig_prog (s : State) (e : EpId) (c : Word) : (s.setConfig e c).prog = s.prog := rfl
@[simp] theorem setConfig_pc (s : State) (e : EpId) (c : Word) : (s.setConfig e c).pc = s.pc := rfl
@[simp] theorem setConfig_results (s : State) (e : EpId) (c : Word) : (s.setConfig e c).results = s.results := rfl
@[simp] theorem setConfig_mem (s : State) (e : EpId) (c : Word) : (s.setConfig e c).mem = s.mem := rfl
@[simp] theorem setConfig_intrState (s : State) (e : EpId) (c : Word) : (s.setConfig e c).intrState = s.intrState := rfl
@[simp] theorem setConfig_intrEnable (s : State) (e : EpId) (c : Word) : (s.setConfig e c).intrEnable = s.intrEnable := rfl
@[simp] theorem setConfig_usbctrl (s : State) (e : EpId) (c : Word) : (s.setConfig e c).usbctrl = s.usbctrl := rfl
@[simp] theorem setConfig_epOutEnable (s : State) (e : EpId) (c : Word) : (s.setConfig e c).epOutEnable = s.epOutEnable := rfl
@[simp] theorem setConfig_epInEnable (s : State) (e : EpId) (c : Word) : (s.setConfig e c).epInEnable = s.epInEnable := rfl
@[simp] theorem setConfig_frame (s : State) (e : EpId) (c : Word) : (s.setConfig e c).frame = s.frame := rfl
@[simp] theorem setConfig_hostLost (s : State) (e : EpId) (c : Word) : (s.setConfig e c).hostLost = s.hostLost := rfl
@[simp] theorem setConfig_linkState (s : State) (e : EpId) (c : Word) : (s.setConfig e c).linkState = s.linkState := rfl
@[simp] theorem setConfig_sense (s : State) (e : EpId) (c : Word) : (s.setConfig e c).sense = s.sense := rfl
@[simp] theorem setConfig_rxEnableSetup (s : State) (e : EpId) (c : Word) : (s.setConfig e c).rxEnableSetup = s.rxEnableSetup := rfl
@[simp] theorem setConfig_rxEnableOut (s : State) (e : EpId) (c : Word) : (s.setConfig e c).rxEnableOut = s.rxEnableOut := rfl
@[simp] theorem setConfig_setNakOut (s : State) (e : EpId) (c : Word) : (s.setConfig e c).setNakOut = s.setNakOut := rfl
@[simp] theorem setConfig_inSent (s : State) (e : EpId) (c : Word) : (s.setConfig e c).inSent = s.inSent := rfl
@[simp] theorem setConfig_outStall (s : State) (e : EpId) (c : Word) : (s.setConfig e c).outStall = s.outStall := rfl
@[simp] theorem setConfig_inStall (s : State) (e : EpId) (c : Word) : (s.setConfig e c).inStall = s.inStall := rfl
@[simp] theorem setConfig_configIn (s : State) (e : EpId) (c : Word) : (s.setConfig e c).configIn = s.configIn.set e.val c := rfl
@[simp] theorem setConfig_outIso (s : State) (e : EpId) (c : Word) : (s.setConfig e c).outIso = s.outIso := rfl
@[simp] theorem setConfig_inIso (s : State) (e : EpId) (c : Word) : (s.setConfig e c).inIso = s.inIso := rfl
@[simp] theorem setConfig_outToggle (s : State) (e : EpId) (c : Word) : (s.setConfig e c).outToggle = s.outToggle := rfl
@[simp] theorem setConfig_inToggle (s : State) (e : EpId) (c : Word) : (s.setConfig e c).inToggle = s.inToggle := rfl
@[simp] theorem setConfig_phyPinsDrive (s : State) (e : EpId) (c : Word) : (s.setConfig e c).phyPinsDrive = s.phyPinsDrive := rfl
@[simp] theorem setConfig_phyConfig (s : State) (e : EpId) (c : Word) : (s.setConfig e c).phyConfig = s.phyConfig := rfl
@[simp] theorem setConfig_avOut (s : State) (e : EpId) (c : Word) : (s.setConfig e c).avOut = s.avOut := rfl
@[simp] theorem setConfig_avSetup (s : State) (e : EpId) (c : Word) : (s.setConfig e c).avSetup = s.avSetup := rfl
@[simp] theorem setConfig_rx (s : State) (e : EpId) (c : Word) : (s.setConfig e c).rx = s.rx := rfl
@[simp] theorem setConfig_bufMem (s : State) (e : EpId) (c : Word) : (s.setConfig e c).bufMem = s.bufMem := rfl
@[simp] theorem setConfig_owner (s : State) (e : EpId) (c : Word) : (s.setConfig e c).owner = s.owner := rfl
@[simp] theorem setConfig_inOwn (s : State) (e : EpId) (c : Word) : (s.setConfig e c).inOwn = s.inOwn := rfl
@[simp] theorem setConfig_faults (s : State) (e : EpId) (c : Word) : (s.setConfig e c).faults = s.faults := rfl
@[simp] theorem setConfig_refused (s : State) (e : EpId) (c : Word) : (s.setConfig e c).refused = s.refused := rfl
@[simp] theorem setConfig_txLog (s : State) (e : EpId) (c : Word) : (s.setConfig e c).txLog = s.txLog := rfl
@[simp] theorem setConfig_sched (s : State) (e : EpId) (c : Word) : (s.setConfig e c).sched = s.sched := rfl
@[simp] theorem setConfig_draws (s : State) (e : EpId) (c : Word) : (s.setConfig e c).draws = s.draws := rfl

@[simp] theorem setInOwn_params (s : State) (e : EpId) (o : Option BufId) : (s.setInOwn e o).params = s.params := rfl
@[simp] theorem setInOwn_prog (s : State) (e : EpId) (o : Option BufId) : (s.setInOwn e o).prog = s.prog := rfl
@[simp] theorem setInOwn_pc (s : State) (e : EpId) (o : Option BufId) : (s.setInOwn e o).pc = s.pc := rfl
@[simp] theorem setInOwn_results (s : State) (e : EpId) (o : Option BufId) : (s.setInOwn e o).results = s.results := rfl
@[simp] theorem setInOwn_mem (s : State) (e : EpId) (o : Option BufId) : (s.setInOwn e o).mem = s.mem := rfl
@[simp] theorem setInOwn_intrState (s : State) (e : EpId) (o : Option BufId) : (s.setInOwn e o).intrState = s.intrState := rfl
@[simp] theorem setInOwn_intrEnable (s : State) (e : EpId) (o : Option BufId) : (s.setInOwn e o).intrEnable = s.intrEnable := rfl
@[simp] theorem setInOwn_usbctrl (s : State) (e : EpId) (o : Option BufId) : (s.setInOwn e o).usbctrl = s.usbctrl := rfl
@[simp] theorem setInOwn_epOutEnable (s : State) (e : EpId) (o : Option BufId) : (s.setInOwn e o).epOutEnable = s.epOutEnable := rfl
@[simp] theorem setInOwn_epInEnable (s : State) (e : EpId) (o : Option BufId) : (s.setInOwn e o).epInEnable = s.epInEnable := rfl
@[simp] theorem setInOwn_frame (s : State) (e : EpId) (o : Option BufId) : (s.setInOwn e o).frame = s.frame := rfl
@[simp] theorem setInOwn_hostLost (s : State) (e : EpId) (o : Option BufId) : (s.setInOwn e o).hostLost = s.hostLost := rfl
@[simp] theorem setInOwn_linkState (s : State) (e : EpId) (o : Option BufId) : (s.setInOwn e o).linkState = s.linkState := rfl
@[simp] theorem setInOwn_sense (s : State) (e : EpId) (o : Option BufId) : (s.setInOwn e o).sense = s.sense := rfl
@[simp] theorem setInOwn_rxEnableSetup (s : State) (e : EpId) (o : Option BufId) : (s.setInOwn e o).rxEnableSetup = s.rxEnableSetup := rfl
@[simp] theorem setInOwn_rxEnableOut (s : State) (e : EpId) (o : Option BufId) : (s.setInOwn e o).rxEnableOut = s.rxEnableOut := rfl
@[simp] theorem setInOwn_setNakOut (s : State) (e : EpId) (o : Option BufId) : (s.setInOwn e o).setNakOut = s.setNakOut := rfl
@[simp] theorem setInOwn_inSent (s : State) (e : EpId) (o : Option BufId) : (s.setInOwn e o).inSent = s.inSent := rfl
@[simp] theorem setInOwn_outStall (s : State) (e : EpId) (o : Option BufId) : (s.setInOwn e o).outStall = s.outStall := rfl
@[simp] theorem setInOwn_inStall (s : State) (e : EpId) (o : Option BufId) : (s.setInOwn e o).inStall = s.inStall := rfl
@[simp] theorem setInOwn_configIn (s : State) (e : EpId) (o : Option BufId) : (s.setInOwn e o).configIn = s.configIn := rfl
@[simp] theorem setInOwn_outIso (s : State) (e : EpId) (o : Option BufId) : (s.setInOwn e o).outIso = s.outIso := rfl
@[simp] theorem setInOwn_inIso (s : State) (e : EpId) (o : Option BufId) : (s.setInOwn e o).inIso = s.inIso := rfl
@[simp] theorem setInOwn_outToggle (s : State) (e : EpId) (o : Option BufId) : (s.setInOwn e o).outToggle = s.outToggle := rfl
@[simp] theorem setInOwn_inToggle (s : State) (e : EpId) (o : Option BufId) : (s.setInOwn e o).inToggle = s.inToggle := rfl
@[simp] theorem setInOwn_phyPinsDrive (s : State) (e : EpId) (o : Option BufId) : (s.setInOwn e o).phyPinsDrive = s.phyPinsDrive := rfl
@[simp] theorem setInOwn_phyConfig (s : State) (e : EpId) (o : Option BufId) : (s.setInOwn e o).phyConfig = s.phyConfig := rfl
@[simp] theorem setInOwn_avOut (s : State) (e : EpId) (o : Option BufId) : (s.setInOwn e o).avOut = s.avOut := rfl
@[simp] theorem setInOwn_avSetup (s : State) (e : EpId) (o : Option BufId) : (s.setInOwn e o).avSetup = s.avSetup := rfl
@[simp] theorem setInOwn_rx (s : State) (e : EpId) (o : Option BufId) : (s.setInOwn e o).rx = s.rx := rfl
@[simp] theorem setInOwn_bufMem (s : State) (e : EpId) (o : Option BufId) : (s.setInOwn e o).bufMem = s.bufMem := rfl
@[simp] theorem setInOwn_owner (s : State) (e : EpId) (o : Option BufId) : (s.setInOwn e o).owner = s.owner := rfl
@[simp] theorem setInOwn_inOwn (s : State) (e : EpId) (o : Option BufId) : (s.setInOwn e o).inOwn = s.inOwn.set e.val o := rfl
@[simp] theorem setInOwn_faults (s : State) (e : EpId) (o : Option BufId) : (s.setInOwn e o).faults = s.faults := rfl
@[simp] theorem setInOwn_refused (s : State) (e : EpId) (o : Option BufId) : (s.setInOwn e o).refused = s.refused := rfl
@[simp] theorem setInOwn_txLog (s : State) (e : EpId) (o : Option BufId) : (s.setInOwn e o).txLog = s.txLog := rfl
@[simp] theorem setInOwn_sched (s : State) (e : EpId) (o : Option BufId) : (s.setInOwn e o).sched = s.sched := rfl
@[simp] theorem setInOwn_draws (s : State) (e : EpId) (o : Option BufId) : (s.setInOwn e o).draws = s.draws := rfl

@[simp] theorem setBuffer_params (s : State) (b : BufId) (im : Vector Byte 64) : (s.setBuffer b im).params = s.params := rfl
@[simp] theorem setBuffer_prog (s : State) (b : BufId) (im : Vector Byte 64) : (s.setBuffer b im).prog = s.prog := rfl
@[simp] theorem setBuffer_pc (s : State) (b : BufId) (im : Vector Byte 64) : (s.setBuffer b im).pc = s.pc := rfl
@[simp] theorem setBuffer_results (s : State) (b : BufId) (im : Vector Byte 64) : (s.setBuffer b im).results = s.results := rfl
@[simp] theorem setBuffer_mem (s : State) (b : BufId) (im : Vector Byte 64) : (s.setBuffer b im).mem = s.mem := rfl
@[simp] theorem setBuffer_intrState (s : State) (b : BufId) (im : Vector Byte 64) : (s.setBuffer b im).intrState = s.intrState := rfl
@[simp] theorem setBuffer_intrEnable (s : State) (b : BufId) (im : Vector Byte 64) : (s.setBuffer b im).intrEnable = s.intrEnable := rfl
@[simp] theorem setBuffer_usbctrl (s : State) (b : BufId) (im : Vector Byte 64) : (s.setBuffer b im).usbctrl = s.usbctrl := rfl
@[simp] theorem setBuffer_epOutEnable (s : State) (b : BufId) (im : Vector Byte 64) : (s.setBuffer b im).epOutEnable = s.epOutEnable := rfl
@[simp] theorem setBuffer_epInEnable (s : State) (b : BufId) (im : Vector Byte 64) : (s.setBuffer b im).epInEnable = s.epInEnable := rfl
@[simp] theorem setBuffer_frame (s : State) (b : BufId) (im : Vector Byte 64) : (s.setBuffer b im).frame = s.frame := rfl
@[simp] theorem setBuffer_hostLost (s : State) (b : BufId) (im : Vector Byte 64) : (s.setBuffer b im).hostLost = s.hostLost := rfl
@[simp] theorem setBuffer_linkState (s : State) (b : BufId) (im : Vector Byte 64) : (s.setBuffer b im).linkState = s.linkState := rfl
@[simp] theorem setBuffer_sense (s : State) (b : BufId) (im : Vector Byte 64) : (s.setBuffer b im).sense = s.sense := rfl
@[simp] theorem setBuffer_rxEnableSetup (s : State) (b : BufId) (im : Vector Byte 64) : (s.setBuffer b im).rxEnableSetup = s.rxEnableSetup := rfl
@[simp] theorem setBuffer_rxEnableOut (s : State) (b : BufId) (im : Vector Byte 64) : (s.setBuffer b im).rxEnableOut = s.rxEnableOut := rfl
@[simp] theorem setBuffer_setNakOut (s : State) (b : BufId) (im : Vector Byte 64) : (s.setBuffer b im).setNakOut = s.setNakOut := rfl
@[simp] theorem setBuffer_inSent (s : State) (b : BufId) (im : Vector Byte 64) : (s.setBuffer b im).inSent = s.inSent := rfl
@[simp] theorem setBuffer_outStall (s : State) (b : BufId) (im : Vector Byte 64) : (s.setBuffer b im).outStall = s.outStall := rfl
@[simp] theorem setBuffer_inStall (s : State) (b : BufId) (im : Vector Byte 64) : (s.setBuffer b im).inStall = s.inStall := rfl
@[simp] theorem setBuffer_configIn (s : State) (b : BufId) (im : Vector Byte 64) : (s.setBuffer b im).configIn = s.configIn := rfl
@[simp] theorem setBuffer_outIso (s : State) (b : BufId) (im : Vector Byte 64) : (s.setBuffer b im).outIso = s.outIso := rfl
@[simp] theorem setBuffer_inIso (s : State) (b : BufId) (im : Vector Byte 64) : (s.setBuffer b im).inIso = s.inIso := rfl
@[simp] theorem setBuffer_outToggle (s : State) (b : BufId) (im : Vector Byte 64) : (s.setBuffer b im).outToggle = s.outToggle := rfl
@[simp] theorem setBuffer_inToggle (s : State) (b : BufId) (im : Vector Byte 64) : (s.setBuffer b im).inToggle = s.inToggle := rfl
@[simp] theorem setBuffer_phyPinsDrive (s : State) (b : BufId) (im : Vector Byte 64) : (s.setBuffer b im).phyPinsDrive = s.phyPinsDrive := rfl
@[simp] theorem setBuffer_phyConfig (s : State) (b : BufId) (im : Vector Byte 64) : (s.setBuffer b im).phyConfig = s.phyConfig := rfl
@[simp] theorem setBuffer_avOut (s : State) (b : BufId) (im : Vector Byte 64) : (s.setBuffer b im).avOut = s.avOut := rfl
@[simp] theorem setBuffer_avSetup (s : State) (b : BufId) (im : Vector Byte 64) : (s.setBuffer b im).avSetup = s.avSetup := rfl
@[simp] theorem setBuffer_rx (s : State) (b : BufId) (im : Vector Byte 64) : (s.setBuffer b im).rx = s.rx := rfl
@[simp] theorem setBuffer_bufMem (s : State) (b : BufId) (im : Vector Byte 64) : (s.setBuffer b im).bufMem = s.bufMem.set b.val im := rfl
@[simp] theorem setBuffer_owner (s : State) (b : BufId) (im : Vector Byte 64) : (s.setBuffer b im).owner = s.owner := rfl
@[simp] theorem setBuffer_inOwn (s : State) (b : BufId) (im : Vector Byte 64) : (s.setBuffer b im).inOwn = s.inOwn := rfl
@[simp] theorem setBuffer_faults (s : State) (b : BufId) (im : Vector Byte 64) : (s.setBuffer b im).faults = s.faults := rfl
@[simp] theorem setBuffer_refused (s : State) (b : BufId) (im : Vector Byte 64) : (s.setBuffer b im).refused = s.refused := rfl
@[simp] theorem setBuffer_txLog (s : State) (b : BufId) (im : Vector Byte 64) : (s.setBuffer b im).txLog = s.txLog := rfl
@[simp] theorem setBuffer_sched (s : State) (b : BufId) (im : Vector Byte 64) : (s.setBuffer b im).sched = s.sched := rfl
@[simp] theorem setBuffer_draws (s : State) (b : BufId) (im : Vector Byte 64) : (s.setBuffer b im).draws = s.draws := rfl

@[simp] theorem start_params (s : State) : (s.start).params = s.params := rfl
@[simp] theorem start_prog (s : State) : (s.start).prog = s.prog := rfl
@[simp] theorem start_pc (s : State) : (s.start).pc = { s.pc with t := 0 } := rfl
@[simp] theorem start_results (s : State) : (s.start).results = [] := rfl
@[simp] theorem start_mem (s : State) : (s.start).mem = s.mem := rfl
@[simp] theorem start_intrState (s : State) : (s.start).intrState = s.intrState := rfl
@[simp] theorem start_intrEnable (s : State) : (s.start).intrEnable = s.intrEnable := rfl
@[simp] theorem start_usbctrl (s : State) : (s.start).usbctrl = s.usbctrl := rfl
@[simp] theorem start_epOutEnable (s : State) : (s.start).epOutEnable = s.epOutEnable := rfl
@[simp] theorem start_epInEnable (s : State) : (s.start).epInEnable = s.epInEnable := rfl
@[simp] theorem start_frame (s : State) : (s.start).frame = s.frame := rfl
@[simp] theorem start_hostLost (s : State) : (s.start).hostLost = s.hostLost := rfl
@[simp] theorem start_linkState (s : State) : (s.start).linkState = s.linkState := rfl
@[simp] theorem start_sense (s : State) : (s.start).sense = s.sense := rfl
@[simp] theorem start_rxEnableSetup (s : State) : (s.start).rxEnableSetup = s.rxEnableSetup := rfl
@[simp] theorem start_rxEnableOut (s : State) : (s.start).rxEnableOut = s.rxEnableOut := rfl
@[simp] theorem start_setNakOut (s : State) : (s.start).setNakOut = s.setNakOut := rfl
@[simp] theorem start_inSent (s : State) : (s.start).inSent = s.inSent := rfl
@[simp] theorem start_outStall (s : State) : (s.start).outStall = s.outStall := rfl
@[simp] theorem start_inStall (s : State) : (s.start).inStall = s.inStall := rfl
@[simp] theorem start_configIn (s : State) : (s.start).configIn = s.configIn := rfl
@[simp] theorem start_outIso (s : State) : (s.start).outIso = s.outIso := rfl
@[simp] theorem start_inIso (s : State) : (s.start).inIso = s.inIso := rfl
@[simp] theorem start_outToggle (s : State) : (s.start).outToggle = s.outToggle := rfl
@[simp] theorem start_inToggle (s : State) : (s.start).inToggle = s.inToggle := rfl
@[simp] theorem start_phyPinsDrive (s : State) : (s.start).phyPinsDrive = s.phyPinsDrive := rfl
@[simp] theorem start_phyConfig (s : State) : (s.start).phyConfig = s.phyConfig := rfl
@[simp] theorem start_avOut (s : State) : (s.start).avOut = s.avOut := rfl
@[simp] theorem start_avSetup (s : State) : (s.start).avSetup = s.avSetup := rfl
@[simp] theorem start_rx (s : State) : (s.start).rx = s.rx := rfl
@[simp] theorem start_bufMem (s : State) : (s.start).bufMem = s.bufMem := rfl
@[simp] theorem start_owner (s : State) : (s.start).owner = s.owner := rfl
@[simp] theorem start_inOwn (s : State) : (s.start).inOwn = s.inOwn := rfl
@[simp] theorem start_faults (s : State) : (s.start).faults = s.faults := rfl
@[simp] theorem start_refused (s : State) : (s.start).refused = s.refused := rfl
@[simp] theorem start_txLog (s : State) : (s.start).txLog = s.txLog := rfl
@[simp] theorem start_sched (s : State) : (s.start).sched = s.sched := rfl
@[simp] theorem start_draws (s : State) : (s.start).draws = s.draws := rfl

@[simp] theorem retire_params (s : State) : (s.retire).params = s.params := rfl
@[simp] theorem retire_prog (s : State) : (s.retire).prog = s.prog := rfl
@[simp] theorem retire_pc (s : State) : (s.retire).pc = ⟨s.pc.op + 1, 0⟩ := rfl
@[simp] theorem retire_results (s : State) : (s.retire).results = s.results := rfl
@[simp] theorem retire_mem (s : State) : (s.retire).mem = s.mem := rfl
@[simp] theorem retire_intrState (s : State) : (s.retire).intrState = s.intrState := rfl
@[simp] theorem retire_intrEnable (s : State) : (s.retire).intrEnable = s.intrEnable := rfl
@[simp] theorem retire_usbctrl (s : State) : (s.retire).usbctrl = s.usbctrl := rfl
@[simp] theorem retire_epOutEnable (s : State) : (s.retire).epOutEnable = s.epOutEnable := rfl
@[simp] theorem retire_epInEnable (s : State) : (s.retire).epInEnable = s.epInEnable := rfl
@[simp] theorem retire_frame (s : State) : (s.retire).frame = s.frame := rfl
@[simp] theorem retire_hostLost (s : State) : (s.retire).hostLost = s.hostLost := rfl
@[simp] theorem retire_linkState (s : State) : (s.retire).linkState = s.linkState := rfl
@[simp] theorem retire_sense (s : State) : (s.retire).sense = s.sense := rfl
@[simp] theorem retire_rxEnableSetup (s : State) : (s.retire).rxEnableSetup = s.rxEnableSetup := rfl
@[simp] theorem retire_rxEnableOut (s : State) : (s.retire).rxEnableOut = s.rxEnableOut := rfl
@[simp] theorem retire_setNakOut (s : State) : (s.retire).setNakOut = s.setNakOut := rfl
@[simp] theorem retire_inSent (s : State) : (s.retire).inSent = s.inSent := rfl
@[simp] theorem retire_outStall (s : State) : (s.retire).outStall = s.outStall := rfl
@[simp] theorem retire_inStall (s : State) : (s.retire).inStall = s.inStall := rfl
@[simp] theorem retire_configIn (s : State) : (s.retire).configIn = s.configIn := rfl
@[simp] theorem retire_outIso (s : State) : (s.retire).outIso = s.outIso := rfl
@[simp] theorem retire_inIso (s : State) : (s.retire).inIso = s.inIso := rfl
@[simp] theorem retire_outToggle (s : State) : (s.retire).outToggle = s.outToggle := rfl
@[simp] theorem retire_inToggle (s : State) : (s.retire).inToggle = s.inToggle := rfl
@[simp] theorem retire_phyPinsDrive (s : State) : (s.retire).phyPinsDrive = s.phyPinsDrive := rfl
@[simp] theorem retire_phyConfig (s : State) : (s.retire).phyConfig = s.phyConfig := rfl
@[simp] theorem retire_avOut (s : State) : (s.retire).avOut = s.avOut := rfl
@[simp] theorem retire_avSetup (s : State) : (s.retire).avSetup = s.avSetup := rfl
@[simp] theorem retire_rx (s : State) : (s.retire).rx = s.rx := rfl
@[simp] theorem retire_bufMem (s : State) : (s.retire).bufMem = s.bufMem := rfl
@[simp] theorem retire_owner (s : State) : (s.retire).owner = s.owner := rfl
@[simp] theorem retire_inOwn (s : State) : (s.retire).inOwn = s.inOwn := rfl
@[simp] theorem retire_faults (s : State) : (s.retire).faults = s.faults := rfl
@[simp] theorem retire_refused (s : State) : (s.retire).refused = s.refused := rfl
@[simp] theorem retire_txLog (s : State) : (s.retire).txLog = s.txLog := rfl
@[simp] theorem retire_sched (s : State) : (s.retire).sched = s.sched := rfl
@[simp] theorem retire_draws (s : State) : (s.retire).draws = s.draws := rfl

theorem setIntrIf_eq (s : State) (c : Bool) (src : IntrSource) :
    s.setIntrIf c src = if c then s.setIntr src else s := rfl

@[simp] theorem setIntrIf_params (s : State) (c : Bool) (src : IntrSource) : (s.setIntrIf c src).params = s.params := by
  cases c <;> rfl
@[simp] theorem setIntrIf_prog (s : State) (c : Bool) (src : IntrSource) : (s.setIntrIf c src).prog = s.prog := by
  cases c <;> rfl
@[simp] theorem setIntrIf_pc (s : State) (c : Bool) (src : IntrSource) : (s.setIntrIf c src).pc = s.pc := by
  cases c <;> rfl
@[simp] theorem setIntrIf_results (s : State) (c : Bool) (src : IntrSource) : (s.setIntrIf c src).results = s.results := by
  cases c <;> rfl
@[simp] theorem setIntrIf_mem (s : State) (c : Bool) (src : IntrSource) : (s.setIntrIf c src).mem = s.mem := by
  cases c <;> rfl
@[simp] theorem setIntrIf_intrEnable (s : State) (c : Bool) (src : IntrSource) : (s.setIntrIf c src).intrEnable = s.intrEnable := by
  cases c <;> rfl
@[simp] theorem setIntrIf_usbctrl (s : State) (c : Bool) (src : IntrSource) : (s.setIntrIf c src).usbctrl = s.usbctrl := by
  cases c <;> rfl
@[simp] theorem setIntrIf_epOutEnable (s : State) (c : Bool) (src : IntrSource) : (s.setIntrIf c src).epOutEnable = s.epOutEnable := by
  cases c <;> rfl
@[simp] theorem setIntrIf_epInEnable (s : State) (c : Bool) (src : IntrSource) : (s.setIntrIf c src).epInEnable = s.epInEnable := by
  cases c <;> rfl
@[simp] theorem setIntrIf_frame (s : State) (c : Bool) (src : IntrSource) : (s.setIntrIf c src).frame = s.frame := by
  cases c <;> rfl
@[simp] theorem setIntrIf_hostLost (s : State) (c : Bool) (src : IntrSource) : (s.setIntrIf c src).hostLost = s.hostLost := by
  cases c <;> rfl
@[simp] theorem setIntrIf_linkState (s : State) (c : Bool) (src : IntrSource) : (s.setIntrIf c src).linkState = s.linkState := by
  cases c <;> rfl
@[simp] theorem setIntrIf_sense (s : State) (c : Bool) (src : IntrSource) : (s.setIntrIf c src).sense = s.sense := by
  cases c <;> rfl
@[simp] theorem setIntrIf_rxEnableSetup (s : State) (c : Bool) (src : IntrSource) : (s.setIntrIf c src).rxEnableSetup = s.rxEnableSetup := by
  cases c <;> rfl
@[simp] theorem setIntrIf_rxEnableOut (s : State) (c : Bool) (src : IntrSource) : (s.setIntrIf c src).rxEnableOut = s.rxEnableOut := by
  cases c <;> rfl
@[simp] theorem setIntrIf_setNakOut (s : State) (c : Bool) (src : IntrSource) : (s.setIntrIf c src).setNakOut = s.setNakOut := by
  cases c <;> rfl
@[simp] theorem setIntrIf_inSent (s : State) (c : Bool) (src : IntrSource) : (s.setIntrIf c src).inSent = s.inSent := by
  cases c <;> rfl
@[simp] theorem setIntrIf_outStall (s : State) (c : Bool) (src : IntrSource) : (s.setIntrIf c src).outStall = s.outStall := by
  cases c <;> rfl
@[simp] theorem setIntrIf_inStall (s : State) (c : Bool) (src : IntrSource) : (s.setIntrIf c src).inStall = s.inStall := by
  cases c <;> rfl
@[simp] theorem setIntrIf_configIn (s : State) (c : Bool) (src : IntrSource) : (s.setIntrIf c src).configIn = s.configIn := by
  cases c <;> rfl
@[simp] theorem setIntrIf_outIso (s : State) (c : Bool) (src : IntrSource) : (s.setIntrIf c src).outIso = s.outIso := by
  cases c <;> rfl
@[simp] theorem setIntrIf_inIso (s : State) (c : Bool) (src : IntrSource) : (s.setIntrIf c src).inIso = s.inIso := by
  cases c <;> rfl
@[simp] theorem setIntrIf_outToggle (s : State) (c : Bool) (src : IntrSource) : (s.setIntrIf c src).outToggle = s.outToggle := by
  cases c <;> rfl
@[simp] theorem setIntrIf_inToggle (s : State) (c : Bool) (src : IntrSource) : (s.setIntrIf c src).inToggle = s.inToggle := by
  cases c <;> rfl
@[simp] theorem setIntrIf_phyPinsDrive (s : State) (c : Bool) (src : IntrSource) : (s.setIntrIf c src).phyPinsDrive = s.phyPinsDrive := by
  cases c <;> rfl
@[simp] theorem setIntrIf_phyConfig (s : State) (c : Bool) (src : IntrSource) : (s.setIntrIf c src).phyConfig = s.phyConfig := by
  cases c <;> rfl
@[simp] theorem setIntrIf_avOut (s : State) (c : Bool) (src : IntrSource) : (s.setIntrIf c src).avOut = s.avOut := by
  cases c <;> rfl
@[simp] theorem setIntrIf_avSetup (s : State) (c : Bool) (src : IntrSource) : (s.setIntrIf c src).avSetup = s.avSetup := by
  cases c <;> rfl
@[simp] theorem setIntrIf_rx (s : State) (c : Bool) (src : IntrSource) : (s.setIntrIf c src).rx = s.rx := by
  cases c <;> rfl
@[simp] theorem setIntrIf_bufMem (s : State) (c : Bool) (src : IntrSource) : (s.setIntrIf c src).bufMem = s.bufMem := by
  cases c <;> rfl
@[simp] theorem setIntrIf_owner (s : State) (c : Bool) (src : IntrSource) : (s.setIntrIf c src).owner = s.owner := by
  cases c <;> rfl
@[simp] theorem setIntrIf_inOwn (s : State) (c : Bool) (src : IntrSource) : (s.setIntrIf c src).inOwn = s.inOwn := by
  cases c <;> rfl
@[simp] theorem setIntrIf_faults (s : State) (c : Bool) (src : IntrSource) : (s.setIntrIf c src).faults = s.faults := by
  cases c <;> rfl
@[simp] theorem setIntrIf_refused (s : State) (c : Bool) (src : IntrSource) : (s.setIntrIf c src).refused = s.refused := by
  cases c <;> rfl
@[simp] theorem setIntrIf_txLog (s : State) (c : Bool) (src : IntrSource) : (s.setIntrIf c src).txLog = s.txLog := by
  cases c <;> rfl
@[simp] theorem setIntrIf_sched (s : State) (c : Bool) (src : IntrSource) : (s.setIntrIf c src).sched = s.sched := by
  cases c <;> rfl
@[simp] theorem setIntrIf_draws (s : State) (c : Bool) (src : IntrSource) : (s.setIntrIf c src).draws = s.draws := by
  cases c <;> rfl

@[simp] theorem setIntrIf_intrState (s : State) (c : Bool) (src : IntrSource) :
    (s.setIntrIf c src).intrState = if c then s.intrState ||| bit (s.params.bitOf src).val else s.intrState := by
  cases c <;> rfl

@[simp] theorem configOf_setConfig (s : State) (e e' : EpId) (c : Word) :
    (s.setConfig e c).configOf e' = if e = e' then c else s.configOf e' := by
  simp [State.configOf, State.setConfig, Vector.getElem_set, Fin.ext_iff]

@[simp] theorem inOwnOf_setInOwn (s : State) (e e' : EpId) (o : Option BufId) :
    (s.setInOwn e o).inOwnOf e' = if e = e' then o else s.inOwnOf e' := by
  simp [State.inOwnOf, State.setInOwn, Vector.getElem_set, Fin.ext_iff]

@[simp] theorem ownerOf_handOff (s : State) (b b' : BufId) :
    (s.handOff b).ownerOf b' = if b = b' then .hw else s.ownerOf b' := by
  simp [State.ownerOf, State.handOff, Vector.getElem_set, Fin.ext_iff]

@[simp] theorem ownerOf_takeBack (s : State) (b b' : BufId) :
    (s.takeBack b).ownerOf b' = if b = b' then .sw else s.ownerOf b' := by
  simp [State.ownerOf, State.takeBack, Vector.getElem_set, Fin.ext_iff]

@[simp] theorem bufByte_setBuffer (s : State) (b b' : BufId) (im : Vector Byte 64) (j : ByteIx) :
    (s.setBuffer b im).bufByte b' j = if b = b' then im[j] else s.bufByte b' j := by
  by_cases h : b = b'
  · subst h; simp [State.bufByte, State.setBuffer]
  · have : b.val ≠ b'.val := fun h' => h (Fin.ext h')
    simp [State.bufByte, State.setBuffer, h, this]

@[simp] theorem configOf_tick (s : State) (e' : EpId) : (s.tick).configOf e' = s.configOf e' := rfl
@[simp] theorem inOwnOf_tick (s : State) (e' : EpId) : (s.tick).inOwnOf e' = s.inOwnOf e' := rfl
@[simp] theorem ownerOf_tick (s : State) (b' : BufId) : (s.tick).ownerOf b' = s.ownerOf b' := rfl
@[simp] theorem enabled_tick (s : State) : (s.tick).enabled = s.enabled := rfl
@[simp] theorem isHalted_tick (s : State) : (s.tick).isHalted = s.isHalted := rfl
@[simp] theorem memByte_tick (s : State) (a' : Nat) : (s.tick).memByte a' = s.memByte a' := rfl
@[simp] theorem configOf_give (s : State) (r : List Word) (e' : EpId) : (s.give r).configOf e' = s.configOf e' := rfl
@[simp] theorem inOwnOf_give (s : State) (r : List Word) (e' : EpId) : (s.give r).inOwnOf e' = s.inOwnOf e' := rfl
@[simp] theorem ownerOf_give (s : State) (r : List Word) (b' : BufId) : (s.give r).ownerOf b' = s.ownerOf b' := rfl
@[simp] theorem enabled_give (s : State) (r : List Word) : (s.give r).enabled = s.enabled := rfl
@[simp] theorem isHalted_give (s : State) (r : List Word) : (s.give r).isHalted = s.isHalted := rfl
@[simp] theorem memByte_give (s : State) (r : List Word) (a' : Nat) : (s.give r).memByte a' = s.memByte a' := rfl
@[simp] theorem configOf_setIntr (s : State) (src : IntrSource) (e' : EpId) : (s.setIntr src).configOf e' = s.configOf e' := rfl
@[simp] theorem inOwnOf_setIntr (s : State) (src : IntrSource) (e' : EpId) : (s.setIntr src).inOwnOf e' = s.inOwnOf e' := rfl
@[simp] theorem ownerOf_setIntr (s : State) (src : IntrSource) (b' : BufId) : (s.setIntr src).ownerOf b' = s.ownerOf b' := rfl
@[simp] theorem enabled_setIntr (s : State) (src : IntrSource) : (s.setIntr src).enabled = s.enabled := rfl
@[simp] theorem isHalted_setIntr (s : State) (src : IntrSource) : (s.setIntr src).isHalted = s.isHalted := rfl
@[simp] theorem memByte_setIntr (s : State) (src : IntrSource) (a' : Nat) : (s.setIntr src).memByte a' = s.memByte a' := rfl
@[simp] theorem configOf_handOff (s : State) (b : BufId) (e' : EpId) : (s.handOff b).configOf e' = s.configOf e' := rfl
@[simp] theorem inOwnOf_handOff (s : State) (b : BufId) (e' : EpId) : (s.handOff b).inOwnOf e' = s.inOwnOf e' := rfl
@[simp] theorem enabled_handOff (s : State) (b : BufId) : (s.handOff b).enabled = s.enabled := rfl
@[simp] theorem isHalted_handOff (s : State) (b : BufId) : (s.handOff b).isHalted = s.isHalted := rfl
@[simp] theorem memByte_handOff (s : State) (b : BufId) (a' : Nat) : (s.handOff b).memByte a' = s.memByte a' := rfl
@[simp] theorem configOf_takeBack (s : State) (b : BufId) (e' : EpId) : (s.takeBack b).configOf e' = s.configOf e' := rfl
@[simp] theorem inOwnOf_takeBack (s : State) (b : BufId) (e' : EpId) : (s.takeBack b).inOwnOf e' = s.inOwnOf e' := rfl
@[simp] theorem enabled_takeBack (s : State) (b : BufId) : (s.takeBack b).enabled = s.enabled := rfl
@[simp] theorem isHalted_takeBack (s : State) (b : BufId) : (s.takeBack b).isHalted = s.isHalted := rfl
@[simp] theorem memByte_takeBack (s : State) (b : BufId) (a' : Nat) : (s.takeBack b).memByte a' = s.memByte a' := rfl
@[simp] theorem inOwnOf_setConfig (s : State) (e : EpId) (c : Word) (e' : EpId) : (s.setConfig e c).inOwnOf e' = s.inOwnOf e' := rfl
@[simp] theorem ownerOf_setConfig (s : State) (e : EpId) (c : Word) (b' : BufId) : (s.setConfig e c).ownerOf b' = s.ownerOf b' := rfl
@[simp] theorem enabled_setConfig (s : State) (e : EpId) (c : Word) : (s.setConfig e c).enabled = s.enabled := rfl
@[simp] theorem isHalted_setConfig (s : State) (e : EpId) (c : Word) : (s.setConfig e c).isHalted = s.isHalted := rfl
@[simp] theorem memByte_setConfig (s : State) (e : EpId) (c : Word) (a' : Nat) : (s.setConfig e c).memByte a' = s.memByte a' := rfl
@[simp] theorem configOf_setInOwn (s : State) (e : EpId) (o : Option BufId) (e' : EpId) : (s.setInOwn e o).configOf e' = s.configOf e' := rfl
@[simp] theorem ownerOf_setInOwn (s : State) (e : EpId) (o : Option BufId) (b' : BufId) : (s.setInOwn e o).ownerOf b' = s.ownerOf b' := rfl
@[simp] theorem enabled_setInOwn (s : State) (e : EpId) (o : Option BufId) : (s.setInOwn e o).enabled = s.enabled := rfl
@[simp] theorem isHalted_setInOwn (s : State) (e : EpId) (o : Option BufId) : (s.setInOwn e o).isHalted = s.isHalted := rfl
@[simp] theorem memByte_setInOwn (s : State) (e : EpId) (o : Option BufId) (a' : Nat) : (s.setInOwn e o).memByte a' = s.memByte a' := rfl
@[simp] theorem configOf_setBuffer (s : State) (b : BufId) (im : Vector Byte 64) (e' : EpId) : (s.setBuffer b im).configOf e' = s.configOf e' := rfl
@[simp] theorem inOwnOf_setBuffer (s : State) (b : BufId) (im : Vector Byte 64) (e' : EpId) : (s.setBuffer b im).inOwnOf e' = s.inOwnOf e' := rfl
@[simp] theorem ownerOf_setBuffer (s : State) (b : BufId) (im : Vector Byte 64) (b' : BufId) : (s.setBuffer b im).ownerOf b' = s.ownerOf b' := rfl
@[simp] theorem enabled_setBuffer (s : State) (b : BufId) (im : Vector Byte 64) : (s.setBuffer b im).enabled = s.enabled := rfl
@[simp] theorem isHalted_setBuffer (s : State) (b : BufId) (im : Vector Byte 64) : (s.setBuffer b im).isHalted = s.isHalted := rfl
@[simp] theorem memByte_setBuffer (s : State) (b : BufId) (im : Vector Byte 64) (a' : Nat) : (s.setBuffer b im).memByte a' = s.memByte a' := rfl
@[simp] theorem configOf_start (s : State) (e' : EpId) : (s.start).configOf e' = s.configOf e' := rfl
@[simp] theorem inOwnOf_start (s : State) (e' : EpId) : (s.start).inOwnOf e' = s.inOwnOf e' := rfl
@[simp] theorem ownerOf_start (s : State) (b' : BufId) : (s.start).ownerOf b' = s.ownerOf b' := rfl
@[simp] theorem enabled_start (s : State) : (s.start).enabled = s.enabled := rfl
@[simp] theorem isHalted_start (s : State) : (s.start).isHalted = s.isHalted := rfl
@[simp] theorem memByte_start (s : State) (a' : Nat) : (s.start).memByte a' = s.memByte a' := rfl
@[simp] theorem configOf_retire (s : State) (e' : EpId) : (s.retire).configOf e' = s.configOf e' := rfl
@[simp] theorem inOwnOf_retire (s : State) (e' : EpId) : (s.retire).inOwnOf e' = s.inOwnOf e' := rfl
@[simp] theorem ownerOf_retire (s : State) (b' : BufId) : (s.retire).ownerOf b' = s.ownerOf b' := rfl
@[simp] theorem enabled_retire (s : State) : (s.retire).enabled = s.enabled := rfl
@[simp] theorem isHalted_retire (s : State) : (s.retire).isHalted = s.isHalted := rfl
@[simp] theorem memByte_retire (s : State) (a' : Nat) : (s.retire).memByte a' = s.memByte a' := rfl

end Sys2Proof.Machine
end

