-- ==== Sys2Proof/Laws/Ops.lean ====
section
/-! SUPPORT. Sequencing: when `andThen` answers, and what the transactions of an operation answer. -/

namespace Sys2Proof.Machine

variable {α β : Type}

@[simp] theorem andThen_next (a : α) (f : α → Host.Outcome β Fault Refusal) : andThen (.next a) f = f a := rfl
@[simp] theorem andThen_fault (r : Fault) (f : α → Host.Outcome β Fault Refusal) :
    andThen (.fault r) f = .fault r := rfl
@[simp] theorem andThen_refused (r : Refusal) (f : α → Host.Outcome β Fault Refusal) :
    andThen (.refused r) f = .refused r := rfl

theorem andThen_eq_next {o : Host.Outcome α Fault Refusal} {f : α → Host.Outcome β Fault Refusal} {b : β} :
    andThen o f = .next b ↔ ∃ a, o = .next a ∧ f a = .next b := by
  cases o <;> simp [andThen]

theorem andThen_eq_fault {o : Host.Outcome α Fault Refusal} {f : α → Host.Outcome β Fault Refusal} {r : Fault} :
    andThen o f = .fault r ↔ o = .fault r ∨ ∃ a, o = .next a ∧ f a = .fault r := by
  cases o <;> simp [andThen]

theorem andThen_eq_refused {o : Host.Outcome α Fault Refusal} {f : α → Host.Outcome β Fault Refusal}
    {r : Refusal} : andThen o f = .refused r ↔ o = .refused r ∨ ∃ a, o = .next a ∧ f a = .refused r := by
  cases o <;> simp [andThen]

theorem andThen_assoc {γ : Type} (o : Host.Outcome α Fault Refusal) (f : α → Host.Outcome β Fault Refusal)
    (g : β → Host.Outcome γ Fault Refusal) :
    andThen (andThen o f) g = andThen o fun a => andThen (f a) g := by
  cases o <;> rfl

@[simp] theorem raise_ne_next (r : FaultReason) (s : State) (a : α) :
    (raise r s : Host.Outcome α Fault Refusal) ≠ .next a := by simp [raise]

@[simp] theorem refuse_ne_next (r : State → Refusal) (s : State) (a : α) :
    (refuse r s : Host.Outcome α Fault Refusal) ≠ .next a := by simp [refuse]

@[simp] theorem stuck_ne_next (s : State) (a : α) : (stuck s : Host.Outcome α Fault Refusal) ≠ .next a := by
  simp [stuck]

/-- What a read transaction inside an operation answers. -/
theorem busRead_eq_next {rule : State → Host.Outcome (Word × State) Fault Refusal} {s t : State} {v : Word} :
    busRead rule s = .next (v, t) ↔ ∃ u, rule (devPoint s) = .next (v, u) ∧ t = u.tick := by
  simp only [busRead, andThen_eq_next]
  constructor
  · rintro ⟨⟨w, u⟩, h, h'⟩
    injection h' with h'
    injection h' with h1 h2
    exact ⟨u, by rw [h, ← h1], h2.symm⟩
  · rintro ⟨u, h, rfl⟩
    exact ⟨(v, u), h, rfl⟩

/-- What a write transaction inside an operation answers. -/
theorem busWrite_eq_next {rule : State → Host.Outcome State Fault Refusal} {s t : State} :
    busWrite rule s = .next t ↔ ∃ u, rule (devPoint s) = .next u ∧ t = u.tick := by
  simp only [busWrite, andThen_eq_next]
  constructor
  · rintro ⟨u, h, h'⟩
    injection h' with h'
    exact ⟨u, h, h'.symm⟩
  · rintro ⟨u, h, rfl⟩
    exact ⟨u, h, rfl⟩

/-- What a read command answers. -/
theorem readCommand_eq_next {rule : State → Host.Outcome (Word × State) Fault Refusal} {s t : State} :
    readCommand rule s = .next t ↔ ∃ v u, rule s = .next (v, u) ∧ t = u.tick.give [v] := by
  simp only [readCommand, andThen_eq_next]
  constructor
  · rintro ⟨⟨v, u⟩, h, h'⟩
    injection h' with h'
    exact ⟨v, u, h, h'.symm⟩
  · rintro ⟨v, u, h, rfl⟩
    exact ⟨(v, u), h, rfl⟩

/-- What a write command answers. -/
theorem writeCommand_eq_next {rule : State → Host.Outcome State Fault Refusal} {s t : State} :
    writeCommand rule s = .next t ↔ ∃ u, rule s = .next u ∧ t = u.tick.give [] := by
  simp only [writeCommand, andThen_eq_next]
  constructor
  · rintro ⟨u, h, h'⟩
    injection h' with h'
    exact ⟨u, h, h'.symm⟩
  · rintro ⟨u, h, rfl⟩
    exact ⟨u, h, rfl⟩

end Sys2Proof.Machine
end

