-- ==== Sys2Proof/Laws/Memory.lean ====
section
/-! SUPPORT. The laws of `MEM`: a read after a write, the canonical form every operation keeps, and that equal memories
are equal data. -/

namespace Sys2Proof.Machine

theorem Memory.get_of_lt {mem : List Host.Cell} {addr : Nat} (h : ∀ c ∈ mem, addr < c.1) :
    Memory.get mem addr = Memory.unlisted := by
  induction mem with
  | nil => rfl
  | cons c rest ih =>
    have hc : addr < c.1 := h c (by simp)
    simp only [Memory.get, if_neg (Nat.ne_of_lt hc)]
    exact ih fun d hd => h d (by simp [hd])

theorem Memory.wf_cons {c : Host.Cell} {rest : List Host.Cell} :
    Memory.wf (c :: rest) = true ↔
      c.2 ≠ Memory.unlisted ∧ (∀ d ∈ rest, c.1 < d.1) ∧ Memory.wf rest = true := by
  obtain ⟨a, v⟩ := c
  simp [Memory.wf, Bool.and_eq_true, List.all_eq_true, and_assoc]

theorem Memory.get_cons (addr : Nat) (v : Byte) (rest : List Host.Cell) (h : ∀ c ∈ rest, addr < c.1) (a : Nat) :
    Memory.get (Memory.cons addr v rest) a = if a = addr then v else Memory.get rest a := by
  unfold Memory.cons
  split
  · rename_i hv
    by_cases ha : a = addr
    · subst ha; rw [if_pos rfl, hv, Memory.get_of_lt h]
    · rw [if_neg ha]
  · rfl

theorem Memory.get_set_aux {mem : List Host.Cell} (h : Memory.wf mem = true) (addr : Nat) (v : Byte) (a : Nat) :
    Memory.get (Memory.set mem addr v) a = if a = addr then v else Memory.get mem a := by
  induction mem with
  | nil => exact Memory.get_cons addr v [] (by simp) a
  | cons c rest ih =>
    obtain ⟨b, w⟩ := c
    obtain ⟨-, hlt, hr⟩ := Memory.wf_cons.1 h
    simp only [Memory.set]
    split
    · rename_i hb
      refine Memory.get_cons addr v _ ?_ a
      intro d hd
      rcases List.mem_cons.1 hd with rfl | hd
      · exact hb
      · exact lt_trans hb (hlt d hd)
    · split
      · rename_i _ hb
        subst hb
        rw [Memory.get_cons addr v rest hlt a]
        by_cases ha : a = addr
        · simp [ha]
        · simp [ha, Memory.get]
      · rename_i hb hb'
        simp only [Memory.get, ih hr]
        by_cases ha : a = b
        · subst ha; simp [Ne.symm hb']
        · simp [ha]

/-- A read after a write to the same address gives the byte written. -/
theorem Memory.get_set_same {mem : List Host.Cell} (h : Memory.wf mem = true) (addr : Nat) (v : Byte) :
    Memory.get (Memory.set mem addr v) addr = v := by simp [Memory.get_set_aux h]

/-- A write leaves every other address alone. -/
theorem Memory.get_set_other {mem : List Host.Cell} (h : Memory.wf mem = true) {addr a : Nat} (v : Byte)
    (ha : a ≠ addr) : Memory.get (Memory.set mem addr v) a = Memory.get mem a := by
  simp [Memory.get_set_aux h, ha]

theorem Memory.mem_set {mem : List Host.Cell} {addr : Nat} {v : Byte} {c : Host.Cell}
    (hc : c ∈ Memory.set mem addr v) : c.1 = addr ∨ c ∈ mem := by
  induction mem with
  | nil =>
    simp only [Memory.set, Memory.cons] at hc
    split at hc
    · simp at hc
    · simp at hc; exact .inl (by rw [hc])
  | cons d rest ih =>
    simp only [Memory.set, Memory.cons] at hc
    split at hc
    · split at hc
      · exact .inr hc
      · rcases List.mem_cons.1 hc with rfl | hc
        · exact .inl rfl
        · exact .inr hc
    · split at hc
      · split at hc
        · exact .inr (List.mem_cons_of_mem _ hc)
        · rcases List.mem_cons.1 hc with rfl | hc
          · exact .inl rfl
          · exact .inr (List.mem_cons_of_mem _ hc)
      · rcases List.mem_cons.1 hc with rfl | hc
        · exact .inr (by simp)
        · rcases ih hc with h | h
          · exact .inl h
          · exact .inr (List.mem_cons_of_mem _ h)

theorem Memory.wf_consCell {addr : Nat} {v : Byte} {rest : List Host.Cell} (h : ∀ c ∈ rest, addr < c.1)
    (hr : Memory.wf rest = true) : Memory.wf (Memory.cons addr v rest) = true := by
  unfold Memory.cons
  split
  · exact hr
  · exact Memory.wf_cons.2 ⟨‹_›, h, hr⟩

/-- A write keeps the canonical form. -/
theorem Memory.wf_set {mem : List Host.Cell} (h : Memory.wf mem = true) (addr : Nat) (v : Byte) :
    Memory.wf (Memory.set mem addr v) = true := by
  induction mem with
  | nil => exact Memory.wf_consCell (by simp) rfl
  | cons c rest ih =>
    obtain ⟨hv, hlt, hr⟩ := Memory.wf_cons.1 h
    simp only [Memory.set]
    split
    · rename_i hb
      refine Memory.wf_consCell (fun d hd => ?_) h
      rcases List.mem_cons.1 hd with rfl | hd
      · exact hb
      · exact lt_trans hb (hlt d hd)
    · split
      · rename_i _ hb
        subst hb
        exact Memory.wf_consCell hlt hr
      · rename_i hb hb'
        refine Memory.wf_cons.2 ⟨hv, fun d hd => ?_, ih hr⟩
        rcases Memory.mem_set hd with hd | hd
        · have : c.1 < addr := by omega
          simpa [hd] using this
        · exact hlt d hd

/-- Two canonical memories that read the same everywhere are the same list. -/
theorem Memory.ext {m n : List Host.Cell} (hm : Memory.wf m = true) (hn : Memory.wf n = true)
    (h : ∀ a, Memory.get m a = Memory.get n a) : m = n := by
  induction m generalizing n with
  | nil =>
    cases n with
    | nil => rfl
    | cons c rest =>
      obtain ⟨hv, -, -⟩ := Memory.wf_cons.1 hn
      have := h c.1
      simp [Memory.get] at this
      exact absurd this.symm hv
  | cons c rest ih =>
    obtain ⟨hv, hlt, hr⟩ := Memory.wf_cons.1 hm
    cases n with
    | nil =>
      have := h c.1
      simp [Memory.get] at this
      exact absurd this hv
    | cons d rest' =>
      obtain ⟨hv', hlt', hr'⟩ := Memory.wf_cons.1 hn
      have hcd : c.1 = d.1 := by
        rcases Nat.lt_trichotomy c.1 d.1 with hl | he | hl
        · have h1 := h c.1
          rw [Memory.get_of_lt (mem := d :: rest') (addr := c.1)] at h1
          · simp [Memory.get] at h1; exact absurd h1 hv
          · intro x hx
            rcases List.mem_cons.1 hx with rfl | hx
            · exact hl
            · exact lt_trans hl (hlt' x hx)
        · exact he
        · have h1 := h d.1
          rw [Memory.get_of_lt (mem := c :: rest) (addr := d.1)] at h1
          · simp [Memory.get] at h1; exact absurd h1.symm hv'
          · intro x hx
            rcases List.mem_cons.1 hx with rfl | hx
            · exact hl
            · exact lt_trans hl (hlt x hx)
      obtain ⟨a, v⟩ := c
      obtain ⟨b, w⟩ := d
      simp only at hcd hlt hlt'
      subst hcd
      have hvw : v = w := by simpa [Memory.get] using h a
      subst hvw
      congr 1
      refine ih hr hr' fun x => ?_
      by_cases hx : x = a
      · subst hx
        rw [Memory.get_of_lt hlt, Memory.get_of_lt hlt']
      · simpa [Memory.get, hx] using h x

/-- Storing a list of bytes keeps the canonical form. -/
theorem storeBytes_wf {mem : List Host.Cell} (h : Memory.wf mem = true) (addr : Nat) (vs : List Byte) :
    Memory.wf (storeBytes mem addr vs) = true := by
  induction vs generalizing mem addr with
  | nil => exact h
  | cons v vs ih => exact ih (Memory.wf_set h addr v) (addr + 1)

/-- What a byte reads as after a list of bytes is stored. -/
theorem storeBytes_get {mem : List Host.Cell} (h : Memory.wf mem = true) (addr : Nat) (vs : List Byte) (a : Nat) :
    Memory.get (storeBytes mem addr vs) a =
      if addr ≤ a ∧ a < addr + vs.length then vs.getD (a - addr) 0#8 else Memory.get mem a := by
  induction vs generalizing mem addr with
  | nil => simp [storeBytes]
  | cons v vs ih =>
    simp only [storeBytes, ih (Memory.wf_set h addr v), Memory.get_set_aux h, List.length_cons]
    by_cases h1 : addr + 1 ≤ a ∧ a < addr + 1 + vs.length
    · have h2 : addr ≤ a ∧ a < addr + (vs.length + 1) := by omega
      have h3 : a - addr = (a - (addr + 1)) + 1 := by omega
      rw [if_pos h1, if_pos h2, h3, List.getD_cons_succ]
    · rw [if_neg h1]
      by_cases h4 : a = addr
      · subst h4; simp
      · have h2 : ¬ (addr ≤ a ∧ a < addr + (vs.length + 1)) := by omega
        rw [if_neg h4, if_neg h2]

/-- What `memWriteBytes` answers: the bytes stored in `MEM`, and nothing else changed. -/
theorem memWriteBytes_eq_next {addr : Nat} {vs : List Byte} {s t : State} (h : memWriteBytes addr vs s = .next t) :
    t = { s with mem := storeBytes s.mem addr vs } := by
  induction vs generalizing addr s with
  | nil => simpa [memWriteBytes, storeBytes] using h.symm
  | cons v vs ih =>
    simp only [memWriteBytes] at h
    split at h
    · exact ih h
    · simp at h

/-- `memWriteBytes` answers where every byte lies in the caller's memory. -/
theorem memWriteBytes_next {addr : Nat} {vs : List Byte} {s : State}
    (h : ∀ i < vs.length, inMemory s.params (addr + i) = true) :
    memWriteBytes addr vs s = .next { s with mem := storeBytes s.mem addr vs } := by
  induction vs generalizing addr s with
  | nil => rfl
  | cons v vs ih =>
    have h0 : inMemory s.params addr = true := by simpa using h 0 (by simp)
    simp only [memWriteBytes, h0, if_true, storeBytes]
    exact ih fun i hi => by
      have := h (i + 1) (by simpa using hi)
      simpa [Nat.add_assoc, Nat.add_comm 1 i] using this

theorem spanInMemory_iff {p : Params} {addr n : Nat} :
    spanInMemory p addr n = true ↔ ∀ i < n, inMemory p (addr + i) = true := by
  simp [spanInMemory, List.all_eq_true]

end Sys2Proof.Machine
end

