-- ==== Sys2Proof/Laws/Words.lean ====
section
/-! SUPPORT. The laws of words and fields: bytes of a word and back, the bits of a bitmap, CONFIGIN's fields, RXFIFO's
layout. -/

namespace Sys2Proof.Machine

/-- The bits of a word of four bytes. -/
theorem wordOfBytes_getLsbD (b0 b1 b2 b3 : Byte) (i : Nat) (hi : i < 32) :
    (wordOfBytes b0 b1 b2 b3).getLsbD i =
      if i < 8 then b0.getLsbD i else if i < 16 then b1.getLsbD (i - 8)
      else if i < 24 then b2.getLsbD (i - 16) else b3.getLsbD (i - 24) := by
  have key (b : Byte) (n : Nat) (h : 8 ≤ n) : b.getLsbD n = false := BitVec.getLsbD_of_ge b n h
  simp only [wordOfBytes, BitVec.getLsbD_or, BitVec.getLsbD_shiftLeft, BitVec.getLsbD_setWidth, hi, decide_true,
    Bool.true_and]
  split
  · have h1 : i < 16 := by omega
    have h2 : i < 24 := by omega
    simp [*]
  · rw [key b0 i (by omega)]
    split
    · have h2 : i < 24 := by omega
      simp [*]; omega
    · rw [key b1 (i - 8) (by omega)]
      split
      · simp [*]; omega
      · rw [key b2 (i - 16) (by omega)]
        simp [*]; omega

theorem byteOfWord_wordOfBytes (b0 b1 b2 b3 : Byte) :
    byteOfWord (wordOfBytes b0 b1 b2 b3) 0 = b0 ∧ byteOfWord (wordOfBytes b0 b1 b2 b3) 1 = b1 ∧
      byteOfWord (wordOfBytes b0 b1 b2 b3) 2 = b2 ∧ byteOfWord (wordOfBytes b0 b1 b2 b3) 3 = b3 := by
  refine ⟨?_, ?_, ?_, ?_⟩ <;>
  · ext i hi
    rw [byteOfWord, BitVec.getElem_extractLsb', ← BitVec.getLsbD_eq_getElem hi,
      wordOfBytes_getLsbD _ _ _ _ _ (by omega)]
    simp (disch := omega) only [if_neg, if_pos]
    congr 1
    omega

theorem wordOfBytes_byteOfWord (w : Word) :
    wordOfBytes (byteOfWord w 0) (byteOfWord w 1) (byteOfWord w 2) (byteOfWord w 3) = w := by
  ext i hi
  rw [← BitVec.getLsbD_eq_getElem hi, wordOfBytes_getLsbD _ _ _ _ _ hi, ← BitVec.getLsbD_eq_getElem hi]
  simp only [byteOfWord, BitVec.getLsbD_extractLsb']
  have key (a : Nat) (h : a ≤ i) (h' : i - a < 8) :
      (decide (i - a < 8) && BitVec.getLsbD w (a + (i - a))) = BitVec.getLsbD w i := by
    rw [Nat.add_sub_cancel' h]; simp [h']
  split_ifs
  · simp [*]
  · exact key 8 (by omega) (by omega)
  · exact key 16 (by omega) (by omega)
  · exact key 24 (by omega) (by omega)

/-- The bits of `bit(e)`. -/
@[simp] theorem getLsbD_bit (e i : Nat) (he : e < 32) : (bit e).getLsbD i = decide (i = e) := by
  by_cases hi : i < 32
  · simp only [bit, BitVec.getLsbD_shiftLeft, BitVec.getLsbD_one]
    by_cases h : i = e
    · subst h; simp [hi]
    · have : ¬ (i - e = 0 ∧ ¬ i < e) := by omega
      simp [h, hi]
      omega
  · rw [BitVec.getLsbD_of_ge _ _ (by omega)]
    symm; simp; omega

@[simp] theorem getElem_bit (e i : Nat) (he : e < 32) (hi : i < 32) : (bit e)[i] = decide (i = e) := by
  rw [← BitVec.getLsbD_eq_getElem hi, getLsbD_bit e i he]

/-- The bits of a bitmap after one of them is set. -/
theorem epBit_setEpBit (w : Word) (e e' : EpId) (on : Bool) :
    epBit (setEpBit w e on) e' = if e' = e then on else epBit w e' := by
  have h1 : e.val < 32 := by omega
  have h2 : e'.val < 32 := by omega
  by_cases h : e' = e
  · subst h
    cases on <;> simp [epBit, setEpBit, h1]
  · have h3 : e'.val ≠ e.val := fun h' => h (Fin.ext h')
    cases on <;> simp [epBit, setEpBit, h1, h2, h, h3]

theorem flag_getLsbD (b : Bool) (i : Nat) : (flag b).getLsbD i = (decide (i = 0) && b) := by
  cases b <;> simp [flag, BitVec.getLsbD_one]

@[simp] theorem flag_getElem (b : Bool) (i : Nat) (hi : i < 32) : (flag b)[i] = (decide (i = 0) && b) := by
  rw [← BitVec.getLsbD_eq_getElem hi, flag_getLsbD]

/-- The flags and fields of CONFIGIN after its flags are replaced. -/
theorem withInFlags_fields (c : Word) (r p n : Bool) :
    readyBit (withInFlags c r p n) = r ∧ pendingBit (withInFlags c r p n) = p ∧
      sendingBit (withInFlags c r p n) = n ∧
      ∀ i < 29, (withInFlags c r p n).getLsbD i = c.getLsbD i := by
  refine ⟨?_, ?_, ?_, fun i hi => ?_⟩
  · simp [readyBit, withInFlags]
  · simp [pendingBit, withInFlags]
  · simp [sendingBit, withInFlags]
  · have h : (0x1FFFFFFF#32).getLsbD i = true := by
      interval_cases i <;> rfl
    have h1 : i < 31 := by omega
    have h2 : i < 30 := by omega
    simp only [withInFlags, BitVec.getLsbD_or, BitVec.getLsbD_and, BitVec.getLsbD_shiftLeft, h, h1, h2, hi]
    simp

theorem sizeField_congr {c d : Word} (h : ∀ i < 29, c.getLsbD i = d.getLsbD i) : sizeField c = sizeField d := by
  ext i hi
  simp only [sizeField, BitVec.getElem_extractLsb']
  exact h _ (by omega)

theorem bufIdOf_congr {c d : Word} (h : ∀ i < 29, c.getLsbD i = d.getLsbD i) : bufIdOf c = bufIdOf d := by
  have h5 : c.extractLsb' 0 5 = d.extractLsb' 0 5 := by
    ext i hi
    simp only [BitVec.getElem_extractLsb']
    exact h _ (by omega)
  have := congrArg BitVec.toNat h5
  simp only [BitVec.extractLsb'_toNat, Nat.shiftRight_zero] at this
  exact Fin.ext (by simpa [bufIdOf, Fin.ofNat] using this)

/-- CONFIGIN's BufferId and Size survive a change of its flags. -/
theorem withInFlags_ids (c : Word) (r p n : Bool) :
    bufIdOf (withInFlags c r p n) = bufIdOf c ∧ sizeField (withInFlags c r p n) = sizeField c :=
  ⟨bufIdOf_congr (withInFlags_fields c r p n).2.2.2, sizeField_congr (withInFlags_fields c r p n).2.2.2⟩

/-- A word stored in a buffer: the four bytes of word k, the others as before. -/
theorem putWord_getElem (im : Vector Byte 64) (k : WordIx) (v : Word) (j : ByteIx) :
    (putWord im k v)[j] = if j.val / 4 = k.val then byteOfWord v (j.val % 4) else im[j] := by
  obtain ⟨j, hj⟩ := j
  have hk := k.isLt
  simp only [putWord, byteIx, Fin.getElem_fin, Vector.getElem_set]
  by_cases h3 : 4 * k.val + 3 = j
  · have h1 : j / 4 = k.val := by omega
    have h2 : j % 4 = 3 := by omega
    simp [h3, h1, h2]
  · by_cases h2 : 4 * k.val + 2 = j
    · have h1 : j / 4 = k.val := by omega
      have h4 : j % 4 = 2 := by omega
      simp [h2, h1, h4, h3]
    · by_cases h1 : 4 * k.val + 1 = j
      · have h5 : j / 4 = k.val := by omega
        have h4 : j % 4 = 1 := by omega
        simp [h1, h5, h4, h3, h2]
      · by_cases h0 : 4 * k.val = j
        · have h5 : j / 4 = k.val := by omega
          have h4 : j % 4 = 0 := by omega
          simp [h0, h5, h4]
        · have h5 : ¬ j / 4 = k.val := by omega
          simp [h0, h5, h3, h2, h1]

end Sys2Proof.Machine
end

