-- ==== Sys2Proof/Laws/Link.lean ====
section
/-! SUPPORT. What the link engine can do, said once: the fields no step of `DEV` writes (spec/46_link_engine.md R326),
for one step, for a scheduled step and for an interleaving point. -/

namespace Sys2Proof.Machine

@[simp] theorem swPart_setIntr (s : State) (src : IntrSource) : (s.setIntr src).swPart = s.swPart := rfl
@[simp] theorem swPart_setIntrIf (s : State) (c : Bool) (src : IntrSource) :
    (s.setIntrIf c src).swPart = s.swPart := by cases c <;> rfl
@[simp] theorem swPart_setConfig (s : State) (e : EpId) (c : Word) : (s.setConfig e c).swPart = s.swPart := rfl
@[simp] theorem swPart_setBuffer (s : State) (b : BufId) (im : Vector Byte 64) :
    (s.setBuffer b im).swPart = s.swPart := rfl
@[simp] theorem swPart_clearStalls (s : State) (ep : EpId) : (clearStalls ep s).swPart = s.swPart := by
  unfold clearStalls; split <;> rfl
@[simp] theorem swPart_setupCancel (s : State) (ep : EpId) (c : Bool) : (setupCancel ep c s).swPart = s.swPart := by
  unfold setupCancel; dsimp only; split <;> rfl
@[simp] theorem swPart_receive (s : State) (b : BufId) (n : Fin 65) (st : Bool) (ep : EpId) (im : Vector Byte 64) :
    (receive b n st ep im s).swPart = s.swPart := by
  unfold receive; dsimp only; rw [swPart_setIntrIf]; rfl
@[simp] theorem swPart_eventStatus (s : State) (k : EventKind) : (eventStatus k s).swPart = s.swPart := by
  cases k <;> rfl

@[simp] theorem sched_clearStalls (s : State) (ep : EpId) : (clearStalls ep s).sched = s.sched := by
  unfold clearStalls; split <;> rfl
@[simp] theorem sched_setupCancel (s : State) (ep : EpId) (c : Bool) : (setupCancel ep c s).sched = s.sched := by
  unfold setupCancel; dsimp only; split <;> rfl
@[simp] theorem sched_receive (s : State) (b : BufId) (n : Fin 65) (st : Bool) (ep : EpId) (im : Vector Byte 64) :
    (receive b n st ep im s).sched = s.sched := by
  unfold receive; dsimp only; rw [setIntrIf_sched]; rfl
@[simp] theorem sched_eventStatus (s : State) (k : EventKind) : (eventStatus k s).sched = s.sched := by
  cases k <;> rfl

/-- One effect of `DEV` leaves `SW`'s part and the schedule alone. -/
theorem devEffect_frame {d : DevStep} {s t : State} (h : devEffect d s = some t) :
    t.swPart = s.swPart ∧ t.sched = s.sched := by
  cases d with
  | rxSetup ep n im c o i =>
    simp only [devEffect, linkRxSetup] at h
    split at h
    · split at h
      · simp at h
      · rename_i b rest _
        injection h with h; subst h
        refine ⟨?_, ?_⟩
        · trans (setupCancel ep c (clearStalls ep
            ((receive b n true ep im { s with avSetup := rest }).setIntrIf rest.isEmpty .availableSetupEmpty))).swPart
          · rfl
          · simp; rfl
        · simp
    · simp at h
  | rxOut ep n im o =>
    simp only [devEffect, linkRxOut] at h
    split at h
    · split at h
      · simp at h
      · rename_i b rest _
        injection h with h; subst h
        refine ⟨?_, ?_⟩
        · trans ((receive b n false ep im { s with avOut := rest }).setIntrIf rest.isEmpty .availableOutEmpty).swPart
          · rfl
          · simp; rfl
        · simp
    · simp at h
  | inStart ep p =>
    simp only [devEffect, linkInStart] at h
    split at h
    · injection h with h; subst h; exact ⟨rfl, rfl⟩
    · simp at h
  | inComplete ep p i =>
    simp only [devEffect, linkInComplete] at h
    split at h
    · injection h with h; subst h; exact ⟨rfl, rfl⟩
    · simp at h
  | inFail ep e p =>
    simp only [devEffect, linkInFail] at h
    split at h
    · injection h with h; subst h
      refine ⟨?_, ?_⟩
      · rw [swPart_setIntrIf]; rfl
      · simp
    · simp at h
  | event k ls =>
    simp only [devEffect, linkEvent] at h
    split at h
    · simp at h
    · injection h with h; subst h
      refine ⟨?_, ?_⟩
      · rw [swPart_eventStatus]; rfl
      · simp
  | sof f =>
    simp only [devEffect, linkSof] at h
    split at h
    · injection h with h; subst h; exact ⟨rfl, rfl⟩
    · simp at h
  | level src =>
    simp only [devEffect, linkLevel] at h
    split at h
    · injection h with h; subst h; exact ⟨rfl, rfl⟩
    · simp at h

theorem devStep_eq_some {d : DevStep} {s t : State} :
    devStep d s = some t ↔ s.isHalted = false ∧ devEffect d s = some t := by
  unfold devStep; cases s.isHalted <;> simp

/-- A scheduled step either is taken or changes nothing. -/
theorem devTake_cases (s : State) (d : DevStep) : devStep d s = some (devTake s d) ∨ devTake s d = s := by
  unfold devTake
  cases h : devStep d s with
  | none => exact .inr rfl
  | some t => exact .inl rfl

theorem devTake_frame (s : State) (d : DevStep) : (devTake s d).swPart = s.swPart ∧ (devTake s d).sched = s.sched := by
  rcases devTake_cases s d with h | h
  · exact devEffect_frame (devStep_eq_some.1 h).2
  · rw [h]; exact ⟨rfl, rfl⟩

theorem devTakes_frame (ds : List DevStep) (s : State) :
    (ds.foldl devTake s).swPart = s.swPart ∧ (ds.foldl devTake s).sched = s.sched := by
  induction ds generalizing s with
  | nil => exact ⟨rfl, rfl⟩
  | cons d ds ih =>
    obtain ⟨h1, h2⟩ := ih (devTake s d)
    obtain ⟨h3, h4⟩ := devTake_frame s d
    exact ⟨h1.trans h3, h2.trans h4⟩

/-- An interleaving point leaves `SW`'s part alone and uses up one group of the schedule. -/
theorem devPoint_frame (s : State) : (devPoint s).swPart = s.swPart ∧ (devPoint s).sched = s.sched.tail := by
  unfold devPoint
  split
  · rename_i h; exact ⟨rfl, by rw [h]; rfl⟩
  · rename_i g rest h
    obtain ⟨h1, h2⟩ := devTakes_frame g { s with sched := rest }
    exact ⟨h1, by rw [h2, h]; rfl⟩

/-- What every step of `DEV` keeps, an interleaving point keeps. -/
theorem devPoint_keeps {P : State → Prop} (hDev : ∀ d s t, P s → devStep d s = some t → P t)
    (hSched : ∀ s q, P s → P { s with sched := q }) {s : State} (h : P s) : P (devPoint s) := by
  unfold devPoint
  split
  · exact h
  · rename_i g rest hs
    have h' := hSched s rest h
    clear hs
    generalize { s with sched := rest } = u at h'
    clear h
    induction g generalizing u with
    | nil => exact h'
    | cons d ds ih =>
      refine ih (devTake u d) ?_
      rcases devTake_cases u d with hd | hd
      · exact hDev d u _ h' hd
      · rw [hd]; exact h'

@[simp] theorem devPoint_params (s : State) : (devPoint s).params = s.params :=
  congrArg SwPart.params (devPoint_frame s).1
@[simp] theorem devPoint_prog (s : State) : (devPoint s).prog = s.prog := congrArg SwPart.prog (devPoint_frame s).1
@[simp] theorem devPoint_pc (s : State) : (devPoint s).pc = s.pc := congrArg SwPart.pc (devPoint_frame s).1
@[simp] theorem devPoint_results (s : State) : (devPoint s).results = s.results :=
  congrArg SwPart.results (devPoint_frame s).1
@[simp] theorem devPoint_mem (s : State) : (devPoint s).mem = s.mem := congrArg SwPart.mem (devPoint_frame s).1
@[simp] theorem devPoint_intrEnable (s : State) : (devPoint s).intrEnable = s.intrEnable :=
  congrArg SwPart.intrEnable (devPoint_frame s).1
@[simp] theorem devPoint_usbctrl (s : State) : (devPoint s).usbctrl = s.usbctrl :=
  congrArg SwPart.usbctrl (devPoint_frame s).1
@[simp] theorem devPoint_epOutEnable (s : State) : (devPoint s).epOutEnable = s.epOutEnable :=
  congrArg SwPart.epOutEnable (devPoint_frame s).1
@[simp] theorem devPoint_epInEnable (s : State) : (devPoint s).epInEnable = s.epInEnable :=
  congrArg SwPart.epInEnable (devPoint_frame s).1
@[simp] theorem devPoint_rxEnableSetup (s : State) : (devPoint s).rxEnableSetup = s.rxEnableSetup :=
  congrArg SwPart.rxEnableSetup (devPoint_frame s).1
@[simp] theorem devPoint_rxEnableOut (s : State) : (devPoint s).rxEnableOut = s.rxEnableOut :=
  congrArg SwPart.rxEnableOut (devPoint_frame s).1
@[simp] theorem devPoint_setNakOut (s : State) : (devPoint s).setNakOut = s.setNakOut :=
  congrArg SwPart.setNakOut (devPoint_frame s).1
@[simp] theorem devPoint_outIso (s : State) : (devPoint s).outIso = s.outIso :=
  congrArg SwPart.outIso (devPoint_frame s).1
@[simp] theorem devPoint_inIso (s : State) : (devPoint s).inIso = s.inIso := congrArg SwPart.inIso (devPoint_frame s).1
@[simp] theorem devPoint_phyPinsDrive (s : State) : (devPoint s).phyPinsDrive = s.phyPinsDrive :=
  congrArg SwPart.phyPinsDrive (devPoint_frame s).1
@[simp] theorem devPoint_phyConfig (s : State) : (devPoint s).phyConfig = s.phyConfig :=
  congrArg SwPart.phyConfig (devPoint_frame s).1
@[simp] theorem devPoint_owner (s : State) : (devPoint s).owner = s.owner := congrArg SwPart.owner (devPoint_frame s).1
@[simp] theorem devPoint_inOwn (s : State) : (devPoint s).inOwn = s.inOwn := congrArg SwPart.inOwn (devPoint_frame s).1
@[simp] theorem devPoint_faults (s : State) : (devPoint s).faults = s.faults :=
  congrArg SwPart.faults (devPoint_frame s).1
@[simp] theorem devPoint_refused (s : State) : (devPoint s).refused = s.refused :=
  congrArg SwPart.refused (devPoint_frame s).1
@[simp] theorem devPoint_draws (s : State) : (devPoint s).draws = s.draws := congrArg SwPart.draws (devPoint_frame s).1
@[simp] theorem devPoint_sched (s : State) : (devPoint s).sched = s.sched.tail := (devPoint_frame s).2
@[simp] theorem devPoint_ownerOf (s : State) (b : BufId) : (devPoint s).ownerOf b = s.ownerOf b := by
  simp [State.ownerOf]
@[simp] theorem devPoint_inOwnOf (s : State) (e : EpId) : (devPoint s).inOwnOf e = s.inOwnOf e := by
  simp [State.inOwnOf]
@[simp] theorem devPoint_isHalted (s : State) : (devPoint s).isHalted = s.isHalted := by simp [State.isHalted]
@[simp] theorem devPoint_memByte (s : State) (a : Nat) : (devPoint s).memByte a = s.memByte a := by
  simp [State.memByte]

/-- With nothing scheduled an interleaving point changes nothing. -/
theorem devPoint_quiet {s : State} (h : s.sched = []) : devPoint s = s := by simp [devPoint, h]

end Sys2Proof.Machine
end

