-- ==== Sys2Proof/Laws/Closed.lean ====
section
/-! SUPPORT. What one instruction and one step of the machine can do, said once: a property that every register rule,
every buffer write, every step of `DEV` and every store to `MEM` keeps is kept by every instruction and by every step. -/

namespace Sys2Proof.Machine

/-- The property is kept by everything an instruction is made of. -/
structure Closed (P : State → Prop) : Prop where
  read : ∀ r s v t, P s → regRead r s = .next (v, t) → P t
  write : ∀ r v s t, P s → regWrite r v s = .next t → P t
  buf : ∀ b k v s t, P s → bufWrite b k v s = .next t → P t
  dev : ∀ d s t, P s → devStep d s = some t → P t
  book : ∀ s p r q, P s → P { s with pc := p, results := r, sched := q }
  mem : ∀ s a v, P s → P { s with mem := Memory.set s.mem a v }

variable {P : State → Prop}

theorem Closed.tick (c : Closed P) {s : State} (h : P s) : P s.tick := c.book s _ s.results s.sched h
theorem Closed.give (c : Closed P) {s : State} (h : P s) (r : List Word) : P (s.give r) := c.book s s.pc r s.sched h
theorem Closed.sched (c : Closed P) (s : State) (q : List (List DevStep)) (h : P s) : P { s with sched := q } :=
  c.book s s.pc s.results q h
theorem Closed.point (c : Closed P) {s : State} (h : P s) : P (devPoint s) := devPoint_keeps c.dev c.sched h

theorem Closed.storeBytes (c : Closed P) (vs : List Byte) :
    ∀ (addr : Nat) (s : State), P s → P { s with mem := storeBytes s.mem addr vs } := by
  induction vs with
  | nil => intro addr s h; exact h
  | cons v vs ih => intro addr s h; exact ih (addr + 1) _ (c.mem s addr v h)

theorem Closed.bufRead (_c : Closed P) {b : BufId} {k : WordIx} {s t : State} {v : Word} (h : P s)
    (hr : bufRead b k s = .next (v, t)) : P t := by
  unfold Machine.bufRead at hr
  split at hr
  · simp at hr
  · injection hr with hr; injection hr with _ hr; exact hr ▸ h

theorem Closed.devRead (c : Closed P) {r : Reg} {s t : State} {v : Word} (h : P s)
    (hr : devRead r s = .next (v, t)) : P t := by
  obtain ⟨u, hu, rfl⟩ := busRead_eq_next.1 hr
  exact c.tick (c.read r _ v u (c.point h) hu)

theorem Closed.devWrite (c : Closed P) {r : Reg} {v : Word} {s t : State} (h : P s)
    (hr : devWrite r v s = .next t) : P t := by
  obtain ⟨u, hu, rfl⟩ := busWrite_eq_next.1 hr
  exact c.tick (c.write r v _ u (c.point h) hu)

theorem Closed.modify (c : Closed P) {r : Reg} {f : Word → Word} {s t : State} (h : P s)
    (hr : modify r f s = .next t) : P t := by
  obtain ⟨⟨v, u⟩, hu, ht⟩ := andThen_eq_next.1 hr
  exact c.devWrite (c.devRead h hu) ht

theorem Closed.readCommand (c : Closed P) {r : Reg} {s t : State} (h : P s)
    (hr : readCommand (regRead r) s = .next t) : P t := by
  obtain ⟨v, u, hu, rfl⟩ := readCommand_eq_next.1 hr
  exact c.give (c.tick (c.read r s v u h hu)) _

theorem Closed.writeCommand (c : Closed P) {r : Reg} {v : Word} {s t : State} (h : P s)
    (hr : writeCommand (regWrite r v) s = .next t) : P t := by
  obtain ⟨u, hu, rfl⟩ := writeCommand_eq_next.1 hr
  exact c.give (c.tick (c.write r v s u h hu)) _

theorem Closed.supplyScan (c : Closed P) (is : List Nat) :
    ∀ (m : Word) (s : State) (m' : Word) (t : State), P s → supplyScan is m s = .next (m', t) → P t := by
  induction is with
  | nil =>
    intro m s m' t h hr
    simp only [Machine.supplyScan] at hr
    injection hr with hr; injection hr with _ hr; exact hr ▸ h
  | cons i is ih =>
    intro m s m' t h hr
    simp only [Machine.supplyScan] at hr
    split at hr
    · obtain ⟨⟨v, u⟩, hu, hr⟩ := andThen_eq_next.1 hr
      have h1 := c.devRead h hu
      dsimp only at hr
      split at hr
      · obtain ⟨⟨w, u2⟩, hu2, hr⟩ := andThen_eq_next.1 hr
        have h2 := c.devRead h1 hu2
        dsimp only at hr
        split at hr
        · injection hr with hr; injection hr with _ hr; exact hr ▸ h2
        · obtain ⟨u3, hu3, hr⟩ := andThen_eq_next.1 hr
          exact ih _ _ _ _ (c.devWrite h2 hu3) hr
      · obtain ⟨u3, hu3, hr⟩ := andThen_eq_next.1 hr
        exact ih _ _ _ _ (c.devWrite h1 hu3) hr
    · exact ih _ _ _ _ h hr

theorem Closed.putWords (c : Closed P) {b : BufId} {data : Nat} (ks : List WordIx) :
    ∀ (s t : State), P s → putWords b data ks s = .next t → P t := by
  induction ks with
  | nil =>
    intro s t h hr
    simp only [Machine.putWords] at hr
    injection hr with hr; exact hr ▸ h
  | cons k ks ih =>
    intro s t h hr
    simp only [Machine.putWords] at hr
    obtain ⟨w, _, hr⟩ := andThen_eq_next.1 hr
    obtain ⟨u, hu, hr⟩ := andThen_eq_next.1 hr
    obtain ⟨u', hu', rfl⟩ := busWrite_eq_next.1 hu
    exact ih _ _ (c.tick (c.buf b k w _ u' (c.point h) hu')) hr

theorem Closed.toDevice (c : Closed P) {buf data n : Nat} {s t : State} (h : P s)
    (hr : toDevice buf data n s = .next t) : P t := by
  unfold Machine.toDevice at hr
  split at hr
  · simp at hr
  · split at hr
    · simp at hr
    · obtain ⟨u, hu, hr⟩ := andThen_eq_next.1 hr
      have h1 := c.putWords _ _ _ h hu
      unfold Machine.putTail at hr
      split at hr
      · injection hr with hr; exact hr ▸ h1
      · obtain ⟨bs, _, hr⟩ := andThen_eq_next.1 hr
        obtain ⟨u', hu', rfl⟩ := busWrite_eq_next.1 hr
        exact c.tick (c.buf _ _ _ _ u' (c.point h1) hu')

theorem Closed.busBufRead (c : Closed P) {b : BufId} {k : WordIx} {s t : State} {v : Word} (h : P s)
    (hr : busRead (Machine.bufRead b k) s = .next (v, t)) : P t := by
  obtain ⟨u, hu, rfl⟩ := busRead_eq_next.1 hr
  exact c.tick (c.bufRead (c.point h) hu)

theorem Closed.memWrite4 (c : Closed P) {addr : Nat} {w : Word} {s t : State} (h : P s)
    (hr : memWrite4 addr w s = .next t) : P t := by
  unfold Machine.memWrite4 at hr
  split at hr
  · injection hr with hr; exact hr ▸ c.storeBytes _ _ _ h
  · simp at hr

theorem Closed.getWords (c : Closed P) {b : BufId} {data : Nat} (ks : List WordIx) :
    ∀ (s t : State), P s → getWords b data ks s = .next t → P t := by
  induction ks with
  | nil =>
    intro s t h hr
    simp only [Machine.getWords] at hr
    injection hr with hr; exact hr ▸ h
  | cons k ks ih =>
    intro s t h hr
    simp only [Machine.getWords] at hr
    obtain ⟨⟨w, u⟩, hu, hr⟩ := andThen_eq_next.1 hr
    obtain ⟨u', hu', hr⟩ := andThen_eq_next.1 hr
    exact ih _ _ (c.memWrite4 (c.busBufRead h hu) hu') hr

theorem Closed.fromDevice (c : Closed P) {buf data n : Nat} {s t : State} (h : P s)
    (hr : fromDevice buf data n s = .next t) : P t := by
  unfold Machine.fromDevice at hr
  split at hr
  · simp at hr
  · split at hr
    · simp at hr
    · obtain ⟨u, hu, hr⟩ := andThen_eq_next.1 hr
      have h1 := c.getWords _ _ _ h hu
      unfold Machine.getTail at hr
      split at hr
      · injection hr with hr; exact hr ▸ h1
      · obtain ⟨⟨w, u'⟩, hu', hr⟩ := andThen_eq_next.1 hr
        have h2 := c.busBufRead h1 hu'
        rw [memWriteBytes_eq_next hr]
        exact c.storeBytes _ _ _ h2

theorem Closed.returnOk (c : Closed P) {s t : State} (h : P s) (hr : returnOk s = .next t) : P t := by
  injection hr with hr; exact hr ▸ c.give h _

theorem Closed.returnFail (c : Closed P) {s t : State} (h : P s) (hr : returnFail s = .next t) : P t := by
  injection hr with hr; exact hr ▸ c.give h _

theorem Closed.giveNext (c : Closed P) {s t : State} {r : List Word} (h : P s)
    (hr : (Host.Outcome.next (s.give r) : Host.Outcome State Fault Refusal) = .next t) : P t := by
  injection hr with hr; exact hr ▸ c.give h _

theorem Closed.sendPacket (c : Closed P) {buf ep data size : Nat} {s t : State} (h : P s)
    (hr : execSendPacket buf ep data size s = .next t) : P t := by
  unfold execSendPacket at hr
  split at hr
  · split at hr
    · simp at hr
    · obtain ⟨u, hu, hr⟩ := andThen_eq_next.1 hr
      have h1 : P u := by
        split at hu
        · exact c.toDevice h hu
        · injection hu with hu; exact hu ▸ h
      obtain ⟨u2, hu2, hr⟩ := andThen_eq_next.1 hr
      obtain ⟨⟨v, u3⟩, hu3, hr⟩ := andThen_eq_next.1 hr
      obtain ⟨u4, hu4, hr⟩ := andThen_eq_next.1 hr
      exact c.returnOk (c.devWrite (c.devRead (c.devWrite h1 hu2) hu3) hu4) hr
  · simp at hr

theorem Closed.packetCollected (c : Closed P) {s t : State} (h : P s)
    (hr : execPacketCollected s = .next t) : P t := by
  unfold execPacketCollected at hr
  obtain ⟨⟨v, u⟩, hu, hr⟩ := andThen_eq_next.1 hr
  have h1 := c.devRead h hu
  dsimp only at hr
  split at hr
  · exact c.returnFail h1 hr
  · obtain ⟨u2, hu2, hr⟩ := andThen_eq_next.1 hr
    obtain ⟨⟨w, u3⟩, hu3, hr⟩ := andThen_eq_next.1 hr
    exact c.giveNext (c.devRead (c.devWrite h1 hu2) hu3) hr

theorem Closed.recvPacket (c : Closed P) {data : Nat} {s t : State} (h : P s)
    (hr : execRecvPacket data s = .next t) : P t := by
  unfold execRecvPacket at hr
  split at hr
  · obtain ⟨⟨v, u⟩, hu, hr⟩ := andThen_eq_next.1 hr
    have h1 := c.devRead h hu
    dsimp only at hr
    split at hr
    · exact c.returnFail h1 hr
    · obtain ⟨⟨w, u2⟩, hu2, hr⟩ := andThen_eq_next.1 hr
      have h2 := c.devRead h1 hu2
      dsimp only at hr
      split at hr
      · simp at hr
      · obtain ⟨u3, hu3, hr⟩ := andThen_eq_next.1 hr
        have h3 : P u3 := by
          split at hu3
          · exact c.fromDevice h2 hu3
          · injection hu3 with hu3; exact hu3 ▸ h2
        exact c.giveNext h3 hr
  · simp at hr

/-- What everything an instruction is made of keeps, every instruction keeps. -/
theorem Closed.exec (c : Closed P) {i : Instr} {s t : State} (h : P s) (hr : exec i s = .next t) : P t := by
  cases i with
  | rdIntrState => exact c.readCommand (r := .intrState) h hr
  | wrIntrState v => exact c.writeCommand (r := .intrState) (v := v) h hr
  | rdIntrEnable => exact c.readCommand (r := .intrEnable) h hr
  | wrIntrEnable v => exact c.writeCommand (r := .intrEnable) (v := v) h hr
  | rdIntrTest => exact c.readCommand (r := .intrTest) h hr
  | wrIntrTest v => exact c.writeCommand (r := .intrTest) (v := v) h hr
  | rdAlertTest => exact c.readCommand (r := .alertTest) h hr
  | wrAlertTest v => exact c.writeCommand (r := .alertTest) (v := v) h hr
  | rdUsbctrl => exact c.readCommand (r := .usbctrl) h hr
  | wrUsbctrl v => exact c.writeCommand (r := .usbctrl) (v := v) h hr
  | rdEpOutEnable => exact c.readCommand (r := .epOutEnable) h hr
  | wrEpOutEnable v => exact c.writeCommand (r := .epOutEnable) (v := v) h hr
  | rdEpInEnable => exact c.readCommand (r := .epInEnable) h hr
  | wrEpInEnable v => exact c.writeCommand (r := .epInEnable) (v := v) h hr
  | rdUsbstat => exact c.readCommand (r := .usbstat) h hr
  | wrUsbstat v => exact c.writeCommand (r := .usbstat) (v := v) h hr
  | rdAvoutbuffer => exact c.readCommand (r := .avOutBuffer) h hr
  | wrAvoutbuffer v => exact c.writeCommand (r := .avOutBuffer) (v := v) h hr
  | rdAvsetupbuffer => exact c.readCommand (r := .avSetupBuffer) h hr
  | wrAvsetupbuffer v => exact c.writeCommand (r := .avSetupBuffer) (v := v) h hr
  | rdRxfifo => exact c.readCommand (r := .rxFifo) h hr
  | wrRxfifo v => exact c.writeCommand (r := .rxFifo) (v := v) h hr
  | rdRxenableSetup => exact c.readCommand (r := .rxEnableSetup) h hr
  | wrRxenableSetup v => exact c.writeCommand (r := .rxEnableSetup) (v := v) h hr
  | rdRxenableOut => exact c.readCommand (r := .rxEnableOut) h hr
  | wrRxenableOut v => exact c.writeCommand (r := .rxEnableOut) (v := v) h hr
  | rdSetNakOut => exact c.readCommand (r := .setNakOut) h hr
  | wrSetNakOut v => exact c.writeCommand (r := .setNakOut) (v := v) h hr
  | rdInSent => exact c.readCommand (r := .inSent) h hr
  | wrInSent v => exact c.writeCommand (r := .inSent) (v := v) h hr
  | rdOutStall => exact c.readCommand (r := .outStall) h hr
  | wrOutStall v => exact c.writeCommand (r := .outStall) (v := v) h hr
  | rdInStall => exact c.readCommand (r := .inStall) h hr
  | wrInStall v => exact c.writeCommand (r := .inStall) (v := v) h hr
  | rdConfigin0 => exact c.readCommand (r := .configIn 0) h hr
  | wrConfigin0 v => exact c.writeCommand (r := .configIn 0) (v := v) h hr
  | rdConfigin1 => exact c.readCommand (r := .configIn 1) h hr
  | wrConfigin1 v => exact c.writeCommand (r := .configIn 1) (v := v) h hr
  | rdConfigin2 => exact c.readCommand (r := .configIn 2) h hr
  | wrConfigin2 v => exact c.writeCommand (r := .configIn 2) (v := v) h hr
  | rdConfigin3 => exact c.readCommand (r := .configIn 3) h hr
  | wrConfigin3 v => exact c.writeCommand (r := .configIn 3) (v := v) h hr
  | rdConfigin4 => exact c.readCommand (r := .configIn 4) h hr
  | wrConfigin4 v => exact c.writeCommand (r := .configIn 4) (v := v) h hr
  | rdConfigin5 => exact c.readCommand (r := .configIn 5) h hr
  | wrConfigin5 v => exact c.writeCommand (r := .configIn 5) (v := v) h hr
  | rdConfigin6 => exact c.readCommand (r := .configIn 6) h hr
  | wrConfigin6 v => exact c.writeCommand (r := .configIn 6) (v := v) h hr
  | rdConfigin7 => exact c.readCommand (r := .configIn 7) h hr
  | wrConfigin7 v => exact c.writeCommand (r := .configIn 7) (v := v) h hr
  | rdConfigin8 => exact c.readCommand (r := .configIn 8) h hr
  | wrConfigin8 v => exact c.writeCommand (r := .configIn 8) (v := v) h hr
  | rdConfigin9 => exact c.readCommand (r := .configIn 9) h hr
  | wrConfigin9 v => exact c.writeCommand (r := .configIn 9) (v := v) h hr
  | rdConfigin10 => exact c.readCommand (r := .configIn 10) h hr
  | wrConfigin10 v => exact c.writeCommand (r := .configIn 10) (v := v) h hr
  | rdConfigin11 => exact c.readCommand (r := .configIn 11) h hr
  | wrConfigin11 v => exact c.writeCommand (r := .configIn 11) (v := v) h hr
  | rdOutIso => exact c.readCommand (r := .outIso) h hr
  | wrOutIso v => exact c.writeCommand (r := .outIso) (v := v) h hr
  | rdInIso => exact c.readCommand (r := .inIso) h hr
  | wrInIso v => exact c.writeCommand (r := .inIso) (v := v) h hr
  | rdOutDataToggle => exact c.readCommand (r := .outDataToggle) h hr
  | wrOutDataToggle v => exact c.writeCommand (r := .outDataToggle) (v := v) h hr
  | rdInDataToggle => exact c.readCommand (r := .inDataToggle) h hr
  | wrInDataToggle v => exact c.writeCommand (r := .inDataToggle) (v := v) h hr
  | rdPhyPinsSense => exact c.readCommand (r := .phyPinsSense) h hr
  | wrPhyPinsSense v => exact c.writeCommand (r := .phyPinsSense) (v := v) h hr
  | rdPhyPinsDrive => exact c.readCommand (r := .phyPinsDrive) h hr
  | wrPhyPinsDrive v => exact c.writeCommand (r := .phyPinsDrive) (v := v) h hr
  | rdPhyConfig => exact c.readCommand (r := .phyConfig) h hr
  | wrPhyConfig v => exact c.writeCommand (r := .phyConfig) (v := v) h hr
  | rdBuf b k =>
    simp only [Machine.exec, execRdBuf] at hr
    obtain ⟨v, u, hu, rfl⟩ := readCommand_eq_next.1 hr
    exact c.give (c.tick (c.bufRead h hu)) _
  | wrBuf b k v =>
    simp only [Machine.exec, execWrBuf] at hr
    obtain ⟨u, hu, rfl⟩ := writeCommand_eq_next.1 hr
    exact c.give (c.tick (c.buf b k v s u h hu)) _
  | wrBufB b j v =>
    simp only [Machine.exec, execWrBufB] at hr
    obtain ⟨u, hu, rfl⟩ := writeCommand_eq_next.1 hr
    injection hu with hu
    exact hu ▸ c.give (c.tick h) _
  | wrBufH b k v =>
    simp only [Machine.exec, execWrBufH] at hr
    obtain ⟨u, hu, rfl⟩ := writeCommand_eq_next.1 hr
    injection hu with hu
    exact hu ▸ c.give (c.tick h) _
  | rdUnmapped090 k => simp [Machine.exec, execRdUnmapped090] at hr
  | wrUnmapped090 k v => simp [Machine.exec, execWrUnmapped090] at hr
  | rdUnmapped0A0 k => simp [Machine.exec, execRdUnmapped0A0] at hr
  | wrUnmapped0A0 k v => simp [Machine.exec, execWrUnmapped0A0] at hr
  | rdUnmapped0C0 k => simp [Machine.exec, execRdUnmapped0C0] at hr
  | wrUnmapped0C0 k v => simp [Machine.exec, execWrUnmapped0C0] at hr
  | rdUnmapped100 k => simp [Machine.exec, execRdUnmapped100] at hr
  | wrUnmapped100 k v => simp [Machine.exec, execWrUnmapped100] at hr
  | rdUnmapped200 k => simp [Machine.exec, execRdUnmapped200] at hr
  | wrUnmapped200 k v => simp [Machine.exec, execWrUnmapped200] at hr
  | rdUnmapped400 k => simp [Machine.exec, execRdUnmapped400] at hr
  | wrUnmapped400 k v => simp [Machine.exec, execWrUnmapped400] at hr
  | init =>
    simp only [Machine.exec, execInit] at hr
    obtain ⟨u, hu, hr⟩ := andThen_eq_next.1 hr
    exact c.returnOk (c.devWrite h hu) hr
  | configureOutEndpoint ep enabled setup iso =>
    simp only [Machine.exec, execConfigureOutEndpoint] at hr
    split at hr
    · split at hr
      · exact c.returnFail h hr
      · obtain ⟨u0, hu0, hr⟩ := andThen_eq_next.1 hr
        obtain ⟨u1, hu1, hr⟩ := andThen_eq_next.1 hr
        obtain ⟨u2, hu2, hr⟩ := andThen_eq_next.1 hr
        obtain ⟨u3, hu3, hr⟩ := andThen_eq_next.1 hr
        exact c.returnOk (c.modify (c.modify (c.modify (c.modify h hu0) hu1) hu2) hu3) hr
    · simp at hr
  | configureInEndpoint ep enabled iso =>
    simp only [Machine.exec, execConfigureInEndpoint] at hr
    split at hr
    · split at hr
      · exact c.returnFail h hr
      · obtain ⟨u0, hu0, hr⟩ := andThen_eq_next.1 hr
        obtain ⟨u1, hu1, hr⟩ := andThen_eq_next.1 hr
        exact c.returnOk (c.modify (c.modify h hu0) hu1) hr
    · simp at hr
  | setEpStalling ep stalling =>
    simp only [Machine.exec, execSetEpStalling] at hr
    split at hr
    · split at hr
      · exact c.returnFail h hr
      · obtain ⟨u0, hu0, hr⟩ := andThen_eq_next.1 hr
        obtain ⟨u1, hu1, hr⟩ := andThen_eq_next.1 hr
        exact c.returnOk (c.modify (c.modify h hu0) hu1) hr
    · simp at hr
  | setDeviceAddress address =>
    simp only [Machine.exec, execSetDeviceAddress] at hr
    split at hr
    · split at hr
      · exact c.returnFail h hr
      · obtain ⟨u, hu, hr⟩ := andThen_eq_next.1 hr
        exact c.returnOk (c.modify h hu) hr
    · simp at hr
  | connect =>
    simp only [Machine.exec, execConnect] at hr
    obtain ⟨u, hu, hr⟩ := andThen_eq_next.1 hr
    exact c.giveNext (c.modify h hu) hr
  | disconnect =>
    simp only [Machine.exec, execDisconnect] at hr
    obtain ⟨u, hu, hr⟩ := andThen_eq_next.1 hr
    exact c.giveNext (c.modify h hu) hr
  | connected =>
    simp only [Machine.exec, execConnected] at hr
    obtain ⟨⟨v, u⟩, hu, hr⟩ := andThen_eq_next.1 hr
    exact c.giveNext (c.devRead h hu) hr
  | supplyBuffers bitmap =>
    simp only [Machine.exec, execSupplyBuffers] at hr
    split at hr
    · obtain ⟨⟨m, u⟩, hu, hr⟩ := andThen_eq_next.1 hr
      exact c.giveNext (c.supplyScan _ _ _ _ _ h hu) hr
    · simp at hr
  | sendPacket buf ep data size => exact c.sendPacket h hr
  | packetCollected => exact c.packetCollected h hr
  | recvPacket data => exact c.recvPacket h hr
  | transferToDevice buf data size =>
    simp only [Machine.exec, execTransferToDevice] at hr
    split at hr
    · obtain ⟨u, hu, hr⟩ := andThen_eq_next.1 hr
      exact c.giveNext (c.toDevice h hu) hr
    · simp at hr
  | transferFromDevice buf data size =>
    simp only [Machine.exec, execTransferFromDevice] at hr
    split at hr
    · obtain ⟨u, hu, hr⟩ := andThen_eq_next.1 hr
      exact c.giveNext (c.fromDevice h hu) hr
    · simp at hr
  | interruptEnable mask =>
    simp only [Machine.exec, execInterruptEnable] at hr
    split at hr
    · obtain ⟨u, hu, hr⟩ := andThen_eq_next.1 hr
      exact c.giveNext (c.modify h hu) hr
    · simp at hr
  | interruptDisable mask =>
    simp only [Machine.exec, execInterruptDisable] at hr
    split at hr
    · obtain ⟨u, hu, hr⟩ := andThen_eq_next.1 hr
      exact c.giveNext (c.modify h hu) hr
    · simp at hr

/-- What everything a step is made of keeps, every step keeps. -/
theorem Closed.step (c : Closed P) {s t : State} (h : P s) (hr : step s = .next t) : P t := by
  unfold Machine.step turn at hr
  split at hr
  · simp at hr
  · split at hr
    · rename_i d ds rest _
      injection hr with hr
      subst hr
      have h1 := c.sched s (ds :: rest) h
      rcases devTake_cases { s with sched := ds :: rest } d with hd | hd
      · exact c.dev d _ _ h1 hd
      · rw [hd]; exact h1
    · unfold swTurn at hr
      split at hr
      · simp at hr
      · split at hr
        · rename_i e _
          cases e <;> simp [refuseCommand] at hr
        · rename_i i _
          obtain ⟨u, hu, hr⟩ := andThen_eq_next.1 hr
          injection hr with hr
          subst hr
          have h1 : P ({ s with sched := s.sched.tail }).start := c.book s _ _ s.sched.tail h
          exact c.book u _ u.results u.sched (c.exec h1 hu)

end Sys2Proof.Machine
end

