-- ==== Sys2Proof/Laws/Bounds.lean ====
section
/-! SUPPORT. What a step of `DEV` and an interleaving point can do to the fields `DEV` does write, said once as a
relation that composes (spec/46_link_engine.md R326). -/

namespace Sys2Proof.Machine

/-- `t` is `s` after some steps of `DEV`. -/
structure DevLe (s t : State) : Prop where
  sw : t.swPart = s.swPart
  avOut : t.avOut <:+ s.avOut
  avSetup : t.avSetup <:+ s.avSetup
  rx : s.rx <+: t.rx
  rxCap : s.rx.length ≤ s.params.rxCap → t.rx.length ≤ s.params.rxCap
  rxMade : (∀ e ∈ s.rx, e.size.toNat ≤ 64 ∧ e.ep.toNat < 12) → ∀ e ∈ t.rx, e.size.toNat ≤ 64 ∧ e.ep.toNat < 12
  buf : ∀ b : BufId, b ∉ s.avOut → b ∉ s.avSetup → t.bufMem[b] = s.bufMem[b]
  stall : s.params.setupClearsStall = false → t.outStall = s.outStall ∧ t.inStall = s.inStall
  held : ∀ e : EpId, t.configOf e &&& 0x1FFFFFFF#32 = s.configOf e &&& 0x1FFFFFFF#32
  idle : ∀ e : EpId, readyBit (s.configOf e) = false → sendingBit (s.configOf e) = false → t.configOf e = s.configOf e

theorem DevLe.refl (s : State) : DevLe s s where
  sw := rfl
  avOut := List.suffix_refl _
  avSetup := List.suffix_refl _
  rx := List.prefix_refl _
  rxCap := id
  rxMade := id
  buf _ _ _ := rfl
  stall _ := ⟨rfl, rfl⟩
  held _ := rfl
  idle _ _ _ := rfl

theorem DevLe.trans {s t u : State} (h : DevLe s t) (k : DevLe t u) : DevLe s u where
  sw := k.sw.trans h.sw
  avOut := k.avOut.trans h.avOut
  avSetup := k.avSetup.trans h.avSetup
  rx := h.rx.trans k.rx
  rxCap hl := by
    have hp : t.params = s.params := congrArg SwPart.params h.sw
    exact hp ▸ k.rxCap (hp ▸ h.rxCap hl)
  rxMade hl := k.rxMade (h.rxMade hl)
  buf b h1 h2 := (k.buf b (fun m => h1 (h.avOut.subset m)) (fun m => h2 (h.avSetup.subset m))).trans (h.buf b h1 h2)
  stall hp := by
    have hq : t.params = s.params := congrArg SwPart.params h.sw
    have h1 := h.stall hp
    have h2 := k.stall (hq ▸ hp)
    exact ⟨h2.1.trans h1.1, h2.2.trans h1.2⟩
  held e := (k.held e).trans (h.held e)
  idle e h1 h2 := by
    have h3 := h.idle e h1 h2
    exact (k.idle e (h3 ▸ h1) (h3 ▸ h2)).trans h3

theorem withInFlags_held (c : Word) (r p n : Bool) :
    withInFlags c r p n &&& 0x1FFFFFFF#32 = c &&& 0x1FFFFFFF#32 := by
  apply BitVec.eq_of_getLsbD_eq
  intro i hi
  obtain ⟨h31, h30, h29, hlow⟩ := withInFlags_fields c r p n
  by_cases h : i < 29
  · simp [hlow i h]
  · have hm : ∀ j : Fin 32, ¬j.val < 29 → (0x1FFFFFFF#32).getLsbD j.val = false := by decide
    have := hm ⟨i, hi⟩ h
    simp [this]

/-- An effect that only replaces the flags of one IN record of an endpoint that is Ready or Sending. -/
theorem held_setConfig (s : State) (ep : EpId) (r p n : Bool) (e : EpId) :
    (s.setConfig ep (withInFlags (s.configOf ep) r p n)).configOf e &&& 0x1FFFFFFF#32
      = s.configOf e &&& 0x1FFFFFFF#32 := by
  rw [configOf_setConfig]
  split
  · rename_i h; rw [h, withInFlags_held]
  · rfl

theorem idle_setConfig {s : State} {ep : EpId} {c : Word} {e : EpId}
    (hs : readyBit (s.configOf ep) = true ∨ sendingBit (s.configOf ep) = true)
    (h1 : readyBit (s.configOf e) = false) (h2 : sendingBit (s.configOf e) = false) :
    (s.setConfig ep c).configOf e = s.configOf e := by
  rw [configOf_setConfig, if_neg]
  rintro rfl
  simp [h1, h2] at hs

@[simp] theorem bufMem_clearStalls (s : State) (ep : EpId) : (clearStalls ep s).bufMem = s.bufMem := by
  unfold clearStalls; split <;> rfl
@[simp] theorem avOut_clearStalls (s : State) (ep : EpId) : (clearStalls ep s).avOut = s.avOut := by
  unfold clearStalls; split <;> rfl
@[simp] theorem avSetup_clearStalls (s : State) (ep : EpId) : (clearStalls ep s).avSetup = s.avSetup := by
  unfold clearStalls; split <;> rfl
@[simp] theorem rx_clearStalls (s : State) (ep : EpId) : (clearStalls ep s).rx = s.rx := by
  unfold clearStalls; split <;> rfl
@[simp] theorem configIn_clearStalls (s : State) (ep : EpId) : (clearStalls ep s).configIn = s.configIn := by
  unfold clearStalls; split <;> rfl
@[simp] theorem configOf_clearStalls (s : State) (ep e : EpId) : (clearStalls ep s).configOf e = s.configOf e := by
  simp [State.configOf]
@[simp] theorem params_clearStalls (s : State) (ep : EpId) : (clearStalls ep s).params = s.params := by
  unfold clearStalls; split <;> rfl
@[simp] theorem bufMem_setupCancel (s : State) (ep : EpId) (c : Bool) :
    (setupCancel ep c s).bufMem = s.bufMem := by unfold setupCancel; dsimp only; split <;> rfl
@[simp] theorem avOut_setupCancel (s : State) (ep : EpId) (c : Bool) :
    (setupCancel ep c s).avOut = s.avOut := by unfold setupCancel; dsimp only; split <;> rfl
@[simp] theorem avSetup_setupCancel (s : State) (ep : EpId) (c : Bool) :
    (setupCancel ep c s).avSetup = s.avSetup := by unfold setupCancel; dsimp only; split <;> rfl
@[simp] theorem rx_setupCancel (s : State) (ep : EpId) (c : Bool) :
    (setupCancel ep c s).rx = s.rx := by unfold setupCancel; dsimp only; split <;> rfl
@[simp] theorem outStall_setupCancel (s : State) (ep : EpId) (c : Bool) :
    (setupCancel ep c s).outStall = s.outStall := by unfold setupCancel; dsimp only; split <;> rfl
@[simp] theorem inStall_setupCancel (s : State) (ep : EpId) (c : Bool) :
    (setupCancel ep c s).inStall = s.inStall := by unfold setupCancel; dsimp only; split <;> rfl

theorem held_setupCancel (s : State) (ep : EpId) (c : Bool) (e : EpId) :
    (setupCancel ep c s).configOf e &&& 0x1FFFFFFF#32 = s.configOf e &&& 0x1FFFFFFF#32 := by
  unfold setupCancel; dsimp only; split
  · exact held_setConfig ..
  · rfl

theorem idle_setupCancel {s : State} {ep : EpId} {c : Bool} {e : EpId} (h1 : readyBit (s.configOf e) = false)
    (h2 : sendingBit (s.configOf e) = false) : (setupCancel ep c s).configOf e = s.configOf e := by
  unfold setupCancel; dsimp only; split
  · rename_i h
    simp only [Bool.and_eq_true] at h
    exact idle_setConfig (.inl h.1.1) h1 h2
  · rfl

/-- A received packet: what it does to the fields it writes. -/
theorem receive_fields (b : BufId) (n : Fin 65) (st : Bool) (ep : EpId) (im : Vector Byte 64) (s : State) :
    (receive b n st ep im s).avOut = s.avOut ∧ (receive b n st ep im s).avSetup = s.avSetup ∧
    (receive b n st ep im s).rx = s.rx ++ [⟨b, BitVec.ofNat 7 n.val, st, BitVec.ofNat 4 ep.val⟩] ∧
    (receive b n st ep im s).bufMem = s.bufMem.set b.val im ∧
    (receive b n st ep im s).configIn = s.configIn ∧ (receive b n st ep im s).outStall = s.outStall ∧
    (receive b n st ep im s).inStall = s.inStall ∧ (receive b n st ep im s).params = s.params := by
  unfold receive; simp [State.setBuffer]

theorem DevLe.of_receive {s t : State} {b : BufId} {n : Fin 65} {st : Bool} {ep : EpId} {im : Vector Byte 64}
    (hsw : t.swPart = s.swPart) (ho : t.avOut <:+ s.avOut) (hs : t.avSetup <:+ s.avSetup)
    (hb : b ∈ s.avOut ∨ b ∈ s.avSetup) (hlen : s.rx.length < s.params.rxCap)
    (hrx : t.rx = s.rx ++ [⟨b, BitVec.ofNat 7 n.val, st, BitVec.ofNat 4 ep.val⟩])
    (hbuf : t.bufMem = s.bufMem.set b.val im)
    (hst : s.params.setupClearsStall = false → t.outStall = s.outStall ∧ t.inStall = s.inStall)
    (hheld : ∀ e : EpId, t.configOf e &&& 0x1FFFFFFF#32 = s.configOf e &&& 0x1FFFFFFF#32)
    (hidle : ∀ e : EpId, readyBit (s.configOf e) = false → sendingBit (s.configOf e) = false →
      t.configOf e = s.configOf e) : DevLe s t where
  sw := hsw
  avOut := ho
  avSetup := hs
  rx := ⟨_, hrx.symm⟩
  rxCap _ := by simpa [hrx] using hlen
  rxMade h e he := by
    rw [hrx, List.mem_append, List.mem_singleton] at he
    rcases he with he | rfl
    · exact h e he
    · simp only [BitVec.toNat_ofNat]; omega
  buf b' h1 h2 := by
    have : b.val ≠ b'.val := by
      intro h; rw [Fin.ext h] at hb; exact hb.elim h1 h2
    simp [hbuf, this]
  stall := hst
  held := hheld
  idle := hidle

theorem devEffect_le {d : DevStep} {s t : State} (h : devEffect d s = some t) : DevLe s t := by
  have hsw := (devEffect_frame h).1
  cases d with
  | rxSetup ep n im c o i =>
    simp only [devEffect, linkRxSetup] at h
    split at h
    · rename_i hg
      split at h
      · simp at h
      · rename_i b rest hq
        injection h with h; subst h
        simp only [Bool.and_eq_true, decide_eq_true_eq] at hg
        obtain ⟨f1, f2, f3, f4, f5, f6, f7, f8⟩ := receive_fields b n true ep im { s with avSetup := rest }
        refine DevLe.of_receive (b := b) (n := n) (st := true) (ep := ep) (im := im) hsw ?_ ?_
          (.inr (by rw [hq]; exact List.mem_cons_self ..)) hg.2 ?_ ?_ ?_ ?_ ?_
        · simp [f1]
        · simp [f2, hq, List.suffix_cons]
        · simp [f3]
        · simp [f4]
        · intro hp
          simp [clearStalls, f8, f6, f7, hp]
        · intro e
          refine (held_setupCancel _ ep c e).trans ?_
          simp [State.configOf, f5]
        · intro e h1 h2
          have hc : ∀ e, (clearStalls ep (State.setIntrIf rest.isEmpty .availableSetupEmpty
            (receive b n true ep im { s with avSetup := rest }))).configOf e = s.configOf e := by
            intro e; simp [State.configOf, f5]
          exact (idle_setupCancel (by rw [hc]; exact h1) (by rw [hc]; exact h2)).trans (hc e)
    · simp at h
  | rxOut ep n im o =>
    simp only [devEffect, linkRxOut] at h
    split at h
    · rename_i hg
      split at h
      · simp at h
      · rename_i b rest hq
        injection h with h; subst h
        simp only [Bool.and_eq_true, decide_eq_true_eq] at hg
        obtain ⟨f1, f2, f3, f4, f5, f6, f7, f8⟩ := receive_fields b n false ep im { s with avOut := rest }
        refine DevLe.of_receive (b := b) (n := n) (st := false) (ep := ep) (im := im) hsw ?_ ?_
          (.inl (by rw [hq]; exact List.mem_cons_self ..)) hg.2 ?_ ?_ ?_ ?_ ?_
        · simp [f1, hq, List.suffix_cons]
        · simp [f2]
        · simp [f3]
        · simp [f4]
        · intro hp; simp [f6, f7]
        · intro e; simp [State.configOf, f5]
        · intro e h1 h2; simp [State.configOf, f5]
    · simp at h
  | inStart ep p =>
    simp only [devEffect, linkInStart] at h
    split at h
    · rename_i hg
      simp only [Bool.and_eq_true] at hg
      injection h with h; subst h
      exact { DevLe.refl s with
        sw := hsw, held := fun e => held_setConfig .., idle := fun e h1 h2 => idle_setConfig (.inl hg.1.2) h1 h2 }
    · simp at h
  | inComplete ep p i =>
    simp only [devEffect, linkInComplete] at h
    split at h
    · rename_i hg
      injection h with h; subst h
      exact { DevLe.refl s with
        sw := hsw, held := fun e => held_setConfig s .., idle := fun e h1 h2 => idle_setConfig (s := s) (.inr hg) h1 h2 }
    · simp at h
  | inFail ep e p =>
    simp only [devEffect, linkInFail] at h
    split at h
    · rename_i hg
      simp only [Bool.and_eq_true] at hg
      injection h with h; subst h
      cases e <;> exact { DevLe.refl s with
        sw := hsw, held := fun e => held_setConfig s .., idle := fun e h1 h2 => idle_setConfig (s := s) (.inr hg.1) h1 h2 }
    · simp at h
  | event k ls =>
    simp only [devEffect, linkEvent] at h
    split at h
    · simp at h
    · injection h with h; subst h
      cases k <;> exact { DevLe.refl s with sw := hsw }
  | sof f =>
    simp only [devEffect, linkSof] at h
    split at h
    · injection h with h; subst h; exact { DevLe.refl s with sw := hsw }
    · simp at h
  | level src =>
    simp only [devEffect, linkLevel] at h
    split at h
    · injection h with h; subst h; exact { DevLe.refl s with sw := hsw }
    · simp at h

theorem devTake_le (s : State) (d : DevStep) : DevLe s (devTake s d) := by
  rcases devTake_cases s d with h | h
  · exact devEffect_le (devStep_eq_some.1 h).2
  · rw [h]; exact DevLe.refl s

theorem devTakes_le (ds : List DevStep) : ∀ s : State, DevLe s (ds.foldl devTake s) := by
  induction ds with
  | nil => exact DevLe.refl
  | cons d ds ih => exact fun s => (devTake_le s d).trans (ih _)

/-- An interleaving point takes some steps of `DEV`. -/
theorem devPoint_le (s : State) : DevLe s (devPoint s) := by
  unfold devPoint
  split
  · exact DevLe.refl s
  · rename_i g rest _
    have h := devTakes_le g { s with sched := rest }
    exact { h with }

/-- A software-owned buffer is in no hardware structure (R61). -/
theorem State.Owned.free {s : State} (h : s.Owned) {b : BufId} (ho : s.ownerOf b = .sw) :
    b ∉ s.avOut ∧ b ∉ s.avSetup ∧ (∀ e ∈ s.rx, e.buf ≠ b) ∧ ∀ e : EpId, s.inOwnOf e ≠ some b := by
  have h0 : s.hwRef b = 0 := by
    have h1 := (h b).1
    have h2 : s.hwRef b ≠ 1 := fun hc => by simp [(h b).2.2 hc] at ho
    omega
  simp only [State.hwRef] at h0
  refine ⟨?_, ?_, ?_, ?_⟩
  · exact List.count_eq_zero.1 (by omega)
  · exact List.count_eq_zero.1 (by omega)
  · intro e he hb
    have : b ∉ s.rx.map RxEntry.buf := List.count_eq_zero.1 (by omega)
    exact this (List.mem_map.2 ⟨e, he, hb⟩)
  · intro e he
    have : some b ∉ s.inOwn.toList := List.count_eq_zero.1 (by omega)
    apply this
    rw [← he]
    simp [State.inOwnOf]

end Sys2Proof.Machine
end

