-- ==== Sys2Proof/Laws/Copies.lean ====
section
/-! SUPPORT. What the copies of the word-transfer engine do, said once for any steps of `DEV` between their
transactions (spec/45_word_transfer.md R290, R291). -/

namespace Sys2Proof.Machine

/-- Some transactions of `SW` to buffer `b` have run, with steps of `DEV` between them: what holds whatever those
steps are, and what holds when none is scheduled. -/
structure Moved (b : BufId) (s t : State) : Prop where
  params : t.params = s.params
  avOut : t.avOut <:+ s.avOut
  avSetup : t.avSetup <:+ s.avSetup
  idle : ∀ e : EpId, readyBit (s.configOf e) = false → sendingBit (s.configOf e) = false → t.configOf e = s.configOf e
  quiet : s.Quiet → t = { s with bufMem := t.bufMem, mem := t.mem, pc := t.pc } ∧
    ∀ b' : BufId, b' ≠ b → t.bufMem[b'] = s.bufMem[b']

theorem Moved.refl (b : BufId) (s : State) : Moved b s s where
  params := rfl
  avOut := List.suffix_refl _
  avSetup := List.suffix_refl _
  idle _ _ _ := rfl
  quiet _ := ⟨rfl, fun _ _ => rfl⟩

theorem Moved.trans {b : BufId} {s t u : State} (h : Moved b s t) (k : Moved b t u) : Moved b s u where
  params := k.params.trans h.params
  avOut := k.avOut.trans h.avOut
  avSetup := k.avSetup.trans h.avSetup
  idle e h1 h2 := by
    have h3 := h.idle e h1 h2
    exact (k.idle e (h3 ▸ h1) (h3 ▸ h2)).trans h3
  quiet hq := by
    obtain ⟨h1, h2⟩ := h.quiet hq
    have hs : t.sched = s.sched := by rw [h1]
    obtain ⟨k1, k2⟩ := k.quiet (hs.trans hq)
    refine ⟨?_, fun b' hb => (k2 b' hb).trans (h2 b' hb)⟩
    rw [k1, h1]

/-- A step that takes the interleaving point and then only touches buffer `b`, `MEM` and the pc. -/
theorem Moved.of_point {b : BufId} {s t : State} (h : t = { devPoint s with bufMem := t.bufMem, mem := t.mem, pc := t.pc })
    (hb : ∀ b' : BufId, b' ≠ b → t.bufMem[b'] = (devPoint s).bufMem[b']) : Moved b s t where
  params := by rw [h]; simp
  avOut := by rw [h]; exact (devPoint_le s).avOut
  avSetup := by rw [h]; exact (devPoint_le s).avSetup
  idle e h1 h2 := by rw [h]; exact (devPoint_le s).idle e h1 h2
  quiet hq := by
    rw [devPoint_quiet hq] at h hb
    exact ⟨h, hb⟩

/-- One word written to a software-owned buffer. -/
theorem busWrite_bufWrite {b : BufId} {k : WordIx} {w : Word} {s : State} (ho : s.ownerOf b = .sw) (h1 : b ∉ s.avOut)
    (h2 : b ∉ s.avSetup) : ∃ t, busWrite (bufWrite b k w) s = .next t ∧ Moved b s t ∧
      t.swPart = { s.swPart with pc := ⟨s.pc.op, s.pc.t + 1⟩ } ∧
      ∀ j : ByteIx, t.bufByte b j = if j.val / 4 = k.val then byteOfWord w (j.val % 4) else s.bufByte b j := by
  refine ⟨((devPoint s).setBuffer b (putWord (devPoint s).bufMem[b] k w)).tick, ?_, ?_, ?_, ?_⟩
  · simp [busWrite, bufWrite, ho]
  · refine Moved.of_point rfl fun b' hb => ?_
    have : b.val ≠ b'.val := fun h => hb (Fin.ext h.symm)
    simp [State.setBuffer, this]
  · have := (devPoint_frame s).1
    simp only [State.swPart, SwPart.mk.injEq] at this ⊢
    simp
  · intro j
    have hb : (devPoint s).bufMem[b] = s.bufMem[b] := (devPoint_le s).buf b h1 h2
    show (((devPoint s).setBuffer b (putWord (devPoint s).bufMem[b] k w))).bufByte b j = _
    rw [bufByte_setBuffer, if_pos rfl, putWord_getElem, hb]
    rfl

/-- The whole words of a copy to a buffer (R290, phases (a) and (b)). -/
theorem putWords_next {b : BufId} {data : Nat} (ks : List WordIx) : ∀ s : State, s.ownerOf b = .sw → b ∉ s.avOut →
    b ∉ s.avSetup → (∀ k ∈ ks, ∀ i < 4, inMemory s.params (data + (4 * k.val + i)) = true) →
    ∃ t, putWords b data ks s = .next t ∧ Moved b s t ∧
      t.swPart = { s.swPart with pc := ⟨s.pc.op, s.pc.t + ks.length⟩ } ∧
      ∀ j : ByteIx, t.bufByte b j = if ∃ k ∈ ks, k.val = j.val / 4 then s.memByte (data + j.val) else s.bufByte b j := by
  induction ks with
  | nil => intro s _ _ _ _; exact ⟨s, rfl, Moved.refl b s, rfl, by simp⟩
  | cons k ks ih =>
    intro s ho h1 h2 hm
    have hspan : spanInMemory s.params (data + 4 * k.val) 4 = true :=
      spanInMemory_iff.2 fun i hi => by rw [Nat.add_assoc]; exact hm k (List.mem_cons_self ..) i hi
    obtain ⟨t, ht, hmv, hsw, hby⟩ := busWrite_bufWrite (k := k) (w := s.memWord (data + 4 * k.val)) ho h1 h2
    have hp : t.params = s.params := hmv.params
    have hown : t.owner = s.owner := congrArg SwPart.owner hsw
    have hmem : t.mem = s.mem := congrArg SwPart.mem hsw
    have hpc : t.pc = ⟨s.pc.op, s.pc.t + 1⟩ := congrArg SwPart.pc hsw
    obtain ⟨u, hu, humv, husw, huby⟩ := ih t (by rw [State.ownerOf, hown]; exact ho)
      (fun m => h1 (hmv.avOut.subset m)) (fun m => h2 (hmv.avSetup.subset m))
      (fun k' hk' i hi => by rw [hp]; exact hm k' (List.mem_cons_of_mem _ hk') i hi)
    refine ⟨u, ?_, hmv.trans humv, ?_, ?_⟩
    · simp [putWords, memRead4, hspan, ht, hu]
    · rw [husw, hsw, hpc]
      simp [Nat.add_assoc, Nat.add_comm]
    · intro j
      rw [huby j, hby j]
      have hmb : t.memByte (data + j.val) = s.memByte (data + j.val) := by simp [State.memByte, hmem]
      by_cases hk : ∃ k' ∈ ks, k'.val = j.val / 4
      · rw [if_pos hk, if_pos, hmb]
        obtain ⟨k', h', h''⟩ := hk
        exact ⟨k', List.mem_cons_of_mem _ h', h''⟩
      · rw [if_neg hk]
        by_cases hk0 : j.val / 4 = k.val
        · rw [if_pos hk0, if_pos ⟨k, List.mem_cons_self .., hk0.symm⟩]
          obtain ⟨e0, e1, e2, e3⟩ := byteOfWord_wordOfBytes (s.memByte (data + 4 * k.val))
            (s.memByte (data + 4 * k.val + 1)) (s.memByte (data + 4 * k.val + 2)) (s.memByte (data + 4 * k.val + 3))
          have hj : j.val = 4 * k.val + j.val % 4 := by omega
          have hr : j.val % 4 < 4 := Nat.mod_lt _ (by omega)
          rw [hj]
          simp only [State.memWord]
          have : (4 * k.val + j.val % 4) % 4 = j.val % 4 := by omega
          rw [this]
          generalize j.val % 4 = r at hr ⊢
          match r, hr with
          | 0, _ => exact e0
          | 1, _ => exact e1
          | 2, _ => exact e2
          | 3, _ => exact e3
        · rw [if_neg hk0, if_neg]
          rintro ⟨k', h', h''⟩
          rcases List.mem_cons.1 h' with rfl | h'
          · exact hk0 h''.symm
          · exact hk ⟨k', h', h''⟩

/-- The bytes of the word that packs a tail (R290). -/
theorem byteOfWord_packTail (f : Nat → Byte) (r j : Nat) (hj : j < 4) :
    byteOfWord (packTail ((List.range r).map f)) j = if j < r then f j else 0#8 := by
  obtain ⟨e0, e1, e2, e3⟩ := byteOfWord_wordOfBytes (((List.range r).map f).getD 0 0#8)
    (((List.range r).map f).getD 1 0#8) (((List.range r).map f).getD 2 0#8) (((List.range r).map f).getD 3 0#8)
  have hg : ∀ i, ((List.range r).map f).getD i 0#8 = if i < r then f i else 0#8 := by
    intro i
    by_cases h : i < r
    · simp [List.getD_eq_getElem?_getD, h]
    · simp [List.getD_eq_getElem?_getD, h]
  match j, hj with
  | 0, _ => exact e0.trans (hg 0)
  | 1, _ => exact e1.trans (hg 1)
  | 2, _ => exact e2.trans (hg 2)
  | 3, _ => exact e3.trans (hg 3)

theorem mem_wholeWords {n : Nat} (hn : n ≤ 64) {q : Nat} : (∃ k ∈ wholeWords n, k.val = q) ↔ q < n / 4 := by
  constructor
  · rintro ⟨k, hk, rfl⟩
    obtain ⟨i, hi, rfl⟩ := List.mem_iff_getElem.1 hk
    simp only [wholeWords, List.length_take, List.length_finRange] at hi
    simp [wholeWords]; omega
  · intro h
    refine ⟨⟨q, by omega⟩, List.mem_iff_getElem.2 ⟨q, ?_, ?_⟩, rfl⟩
    · simp [wholeWords]; omega
    · simp [wholeWords]

theorem length_wholeWords {n : Nat} (hn : n ≤ 64) : (wholeWords n).length = n / 4 := by
  simp [wholeWords]; omega

/-- A copy to a software-owned buffer that is in no availability queue (R290): it completes whatever `DEV` does. -/
theorem toDevice_next {b : BufId} {data n : Nat} {s : State} (hn : n ≤ 64) (ha : 0 < n → data % 4 = 0)
    (hm : s.HasBytes data n) (ho : s.ownerOf b = .sw) (h1 : b ∉ s.avOut) (h2 : b ∉ s.avSetup) :
    ∃ t, toDevice b.val data n s = .next t ∧ Moved b s t ∧
      t.swPart = { s.swPart with pc := ⟨s.pc.op, s.pc.t + copyCount n⟩ } ∧
      ∀ j : ByteIx, t.bufByte b j = if j.val < n then s.memByte (data + j.val)
        else if j.val < 4 * copyCount n then 0#8 else s.bufByte b j := by
  have hb : (Fin.ofNat 32 b.val : BufId) = b := Fin.ext (by simp [Fin.ofNat])
  have hcond1 : ¬(32 ≤ b.val ∨ Config.maxPkt < n) := by simp [Config.maxPkt]; omega
  have hcond2 : ¬(0 < n ∧ data % 4 ≠ 0) := fun h => h.2 (ha h.1)
  obtain ⟨t, ht, hmv, hsw, hby⟩ := putWords_next (data := data) (wholeWords n) s ho h1 h2 (fun k hk i hi => by
    have := (mem_wholeWords hn).1 ⟨k, hk, rfl⟩
    exact hm _ (by omega))
  rw [length_wholeWords hn] at hsw
  by_cases hr : n % 4 = 0
  · refine ⟨t, ?_, hmv, ?_, ?_⟩
    · simp only [toDevice, if_neg hcond1, if_neg hcond2, hb, ht, andThen_next, putTail, if_pos hr]
    · rw [hsw]; simp [copyCount]; omega
    · intro j
      rw [hby j]
      have hc : copyCount n = n / 4 := by simp [copyCount]; omega
      by_cases hj : j.val < n
      · rw [if_pos ((mem_wholeWords hn).2 (by omega)), if_pos hj]
      · rw [if_neg (fun h => hj (by have := (mem_wholeWords hn).1 h; omega)), if_neg hj, if_neg (by omega)]
  · have hp : t.params = s.params := hmv.params
    have hown : t.owner = s.owner := congrArg SwPart.owner hsw
    have hmem : t.mem = s.mem := congrArg SwPart.mem hsw
    have hpc : t.pc = ⟨s.pc.op, s.pc.t + n / 4⟩ := congrArg SwPart.pc hsw
    have hspan : spanInMemory t.params (data + 4 * (n / 4)) (n % 4) = true :=
      spanInMemory_iff.2 fun i hi => by rw [hp, Nat.add_assoc]; exact hm _ (by omega)
    obtain ⟨u, hu, humv, husw, huby⟩ := busWrite_bufWrite (b := b) (k := tailWord n)
      (w := packTail ((List.range (n % 4)).map fun j => t.memByte (data + 4 * (n / 4) + j)))
      (s := t) (by rw [State.ownerOf, hown]; exact ho) (fun m => h1 (hmv.avOut.subset m))
      (fun m => h2 (hmv.avSetup.subset m))
    refine ⟨u, ?_, hmv.trans humv, ?_, ?_⟩
    · simp only [toDevice, if_neg hcond1, if_neg hcond2, hb, ht, andThen_next, putTail, if_neg hr, memReadBytes, hspan,
        if_true, hu]
    · rw [husw, hsw, hpc]
      have : n / 4 + 1 = copyCount n := by simp [copyCount]; omega
      simp [← this, Nat.add_assoc]
    · intro j
      have htw : (tailWord n).val = n / 4 := by simp [tailWord, Fin.ofNat]; omega
      have hc : copyCount n = n / 4 + 1 := by simp [copyCount]; omega
      rw [huby j, hby j, htw]
      by_cases hq : j.val / 4 = n / 4
      · rw [if_pos hq, byteOfWord_packTail _ _ _ (Nat.mod_lt _ (by omega))]
        by_cases hj : j.val < n
        · rw [if_pos (by omega), if_pos hj]
          simp only [State.memByte, hmem]
          congr 1; omega
        · rw [if_neg (by omega), if_neg hj, if_pos (by omega)]
      · rw [if_neg hq]
        by_cases hj : j.val < n
        · rw [if_pos ((mem_wholeWords hn).2 (by omega)), if_pos hj]
        · rw [if_neg (fun h => hj (by have := (mem_wholeWords hn).1 h; omega)), if_neg hj, if_neg (by omega)]

/-- One word read from a software-owned buffer. -/
theorem busRead_bufRead {b : BufId} {k : WordIx} {s : State} (ho : s.ownerOf b = .sw) (h1 : b ∉ s.avOut)
    (h2 : b ∉ s.avSetup) : busRead (bufRead b k) s = .next (s.bufWord b k, (devPoint s).tick) := by
  have hb : (devPoint s).bufMem[b] = s.bufMem[b] := (devPoint_le s).buf b h1 h2
  have hw : (devPoint s).bufWord b k = s.bufWord b k := by simp only [State.bufWord, State.bufByte, hb]
  simp [busRead, bufRead, ho, hw]

theorem byteOfWord_bufWord (s : State) (b : BufId) (k : WordIx) (j : Nat) (hj : j < 4) :
    byteOfWord (s.bufWord b k) j = s.bufByte b (byteIx k ⟨j, hj⟩) := by
  obtain ⟨e0, e1, e2, e3⟩ := byteOfWord_wordOfBytes (s.bufByte b (byteIx k 0)) (s.bufByte b (byteIx k 1))
    (s.bufByte b (byteIx k 2)) (s.bufByte b (byteIx k 3))
  match j, hj with
  | 0, _ => exact e0
  | 1, _ => exact e1
  | 2, _ => exact e2
  | 3, _ => exact e3

theorem bufByte_congr {s t : State} {b : BufId} (h : t.bufMem[b] = s.bufMem[b]) (j : ByteIx) :
    t.bufByte b j = s.bufByte b j := by simp only [State.bufByte, h]

theorem wordBytes_getD (w : Word) (n i : Nat) (hi : i < n) : (wordBytes w n).getD i 0#8 = byteOfWord w i := by
  simp [wordBytes, List.getD_eq_getElem?_getD, hi]

@[simp] theorem length_wordBytes (w : Word) (n : Nat) : (wordBytes w n).length = n := by simp [wordBytes]

/-- The whole words of a copy from a buffer (R291). -/
theorem getWords_next {b : BufId} {data : Nat} (ks : List WordIx) : ∀ s : State, s.ownerOf b = .sw → b ∉ s.avOut →
    b ∉ s.avSetup → Memory.wf s.mem = true →
    (∀ k ∈ ks, ∀ i < 4, inMemory s.params (data + (4 * k.val + i)) = true) →
    ∃ t, getWords b data ks s = .next t ∧ Moved b s t ∧ t.bufMem[b] = s.bufMem[b] ∧ Memory.wf t.mem = true ∧
      t.swPart = { s.swPart with pc := ⟨s.pc.op, s.pc.t + ks.length⟩, mem := t.mem } ∧
      (s.Quiet → t.bufMem = s.bufMem) ∧
      ∀ a : Nat, t.memByte a = if h : data ≤ a ∧ ∃ k ∈ ks, k.val = (a - data) / 4 then
        s.bufByte b ⟨a - data, by obtain ⟨_, k, _, hk⟩ := h; omega⟩ else s.memByte a := by
  induction ks with
  | nil => intro s _ _ _ hw _; exact ⟨s, rfl, Moved.refl b s, rfl, hw, rfl, fun _ => rfl, by simp⟩
  | cons k ks ih =>
    intro s ho h1 h2 hw hm
    have hr := busRead_bufRead (k := k) ho h1 h2
    have hspan : spanInMemory s.params (data + 4 * k.val) 4 = true :=
      spanInMemory_iff.2 fun i hi => by rw [Nat.add_assoc]; exact hm k (List.mem_cons_self ..) i hi
    let t : State := { (devPoint s).tick with
      mem := storeBytes s.mem (data + 4 * k.val) (wordBytes (s.bufWord b k) 4) }
    have hmw : memWrite4 (data + 4 * k.val) (s.bufWord b k) (devPoint s).tick = .next t := by
      simp [memWrite4, hspan, t]
    have hmv : Moved b s t := Moved.of_point rfl fun _ _ => rfl
    have hbuf : t.bufMem[b] = s.bufMem[b] := (devPoint_le s).buf b h1 h2
    have hwt : Memory.wf t.mem = true := storeBytes_wf hw _ _
    have hsw : t.swPart = { s.swPart with pc := ⟨s.pc.op, s.pc.t + 1⟩, mem := t.mem } := by
      have := (devPoint_frame s).1
      simp only [State.swPart, SwPart.mk.injEq] at this ⊢
      simp [t]
    have hp : t.params = s.params := hmv.params
    have hown : t.owner = s.owner := congrArg SwPart.owner hsw
    have hpc : t.pc = ⟨s.pc.op, s.pc.t + 1⟩ := congrArg SwPart.pc hsw
    have hbyte : ∀ a : Nat, t.memByte a = if h : data ≤ a ∧ (a - data) / 4 = k.val then
        s.bufByte b ⟨a - data, by omega⟩ else s.memByte a := by
      intro a
      show Memory.get (storeBytes s.mem (data + 4 * k.val) (wordBytes (s.bufWord b k) 4)) a = _
      rw [storeBytes_get hw, length_wordBytes]
      by_cases h : data ≤ a ∧ (a - data) / 4 = k.val
      · rw [if_pos (by omega), dif_pos h, wordBytes_getD _ _ _ (by omega), byteOfWord_bufWord _ _ _ _ (by omega)]
        congr 1
        apply Fin.ext
        simp only [byteIx]; omega
      · rw [if_neg (by omega), dif_neg h]; rfl
    obtain ⟨u, hu, humv, hub, hwu, husw, hq, huby⟩ := ih t (by rw [State.ownerOf, hown]; exact ho)
      (fun m => h1 (hmv.avOut.subset m)) (fun m => h2 (hmv.avSetup.subset m)) hwt
      (fun k' hk' i hi => by rw [hp]; exact hm k' (List.mem_cons_of_mem _ hk') i hi)
    refine ⟨u, ?_, hmv.trans humv, hub.trans hbuf, hwu, ?_, ?_, ?_⟩
    · simp only [getWords, hr, andThen_next, hmw, hu]
    · rw [husw, hsw, hpc]
      simp [Nat.add_assoc, Nat.add_comm]
    · intro hqs
      have : t.sched = s.sched := by simp [t, devPoint_quiet hqs]
      rw [hq (this.trans hqs)]
      simp [t, devPoint_quiet hqs]
    · intro a
      rw [huby a]
      by_cases h : data ≤ a ∧ ∃ k' ∈ ks, k'.val = (a - data) / 4
      · have h' : data ≤ a ∧ ∃ k' ∈ k :: ks, k'.val = (a - data) / 4 := by
          obtain ⟨g, k', g1, g2⟩ := h; exact ⟨g, k', List.mem_cons_of_mem _ g1, g2⟩
        rw [dif_pos h, dif_pos h', bufByte_congr hbuf]
      · rw [dif_neg h, hbyte a]
        by_cases h0 : data ≤ a ∧ (a - data) / 4 = k.val
        · rw [dif_pos h0, dif_pos ⟨h0.1, k, List.mem_cons_self .., h0.2.symm⟩]
        · rw [dif_neg h0, dif_neg]
          rintro ⟨g, k', g1, g2⟩
          rcases List.mem_cons.1 g1 with rfl | g1
          · exact h0 ⟨g, g2.symm⟩
          · exact h ⟨g, k', g1, g2⟩

/-- A copy from a software-owned buffer that is in no availability queue (R291): it completes whatever `DEV` does. -/
theorem fromDevice_next {b : BufId} {data n : Nat} {s : State} (hn : n ≤ 64) (ha : 0 < n → data % 4 = 0)
    (hm : s.HasBytes data n) (ho : s.ownerOf b = .sw) (h1 : b ∉ s.avOut) (h2 : b ∉ s.avSetup)
    (hw : Memory.wf s.mem = true) :
    ∃ t, fromDevice b.val data n s = .next t ∧ Moved b s t ∧ t.bufMem[b] = s.bufMem[b] ∧ Memory.wf t.mem = true ∧
      t.swPart = { s.swPart with pc := ⟨s.pc.op, s.pc.t + copyCount n⟩, mem := t.mem } ∧
      (s.Quiet → t.bufMem = s.bufMem) ∧
      ∀ a : Nat, t.memByte a = if h : data ≤ a ∧ a < data + n then s.bufByte b ⟨a - data, by omega⟩
        else s.memByte a := by
  have hb : (Fin.ofNat 32 b.val : BufId) = b := Fin.ext (by simp [Fin.ofNat])
  have hcond1 : ¬(32 ≤ b.val ∨ Config.maxPkt < n) := by simp [Config.maxPkt]; omega
  have hcond2 : ¬(0 < n ∧ data % 4 ≠ 0) := fun h => h.2 (ha h.1)
  obtain ⟨t, ht, hmv, htb, hwt, hsw, hq, hby⟩ := getWords_next (data := data) (wholeWords n) s ho h1 h2 hw
    (fun k hk i hi => by
      have := (mem_wholeWords hn).1 ⟨k, hk, rfl⟩
      exact hm _ (by omega))
  rw [length_wholeWords hn] at hsw
  by_cases hr : n % 4 = 0
  · refine ⟨t, ?_, hmv, htb, hwt, ?_, hq, ?_⟩
    · simp only [fromDevice, if_neg hcond1, if_neg hcond2, hb, ht, andThen_next, getTail, if_pos hr]
    · have hc : copyCount n = n / 4 := by simp [copyCount]; omega
      rw [hc]; exact hsw
    · intro a
      rw [hby a]
      by_cases hj : data ≤ a ∧ a < data + n
      · rw [dif_pos ⟨hj.1, (mem_wholeWords hn).2 (by omega)⟩, dif_pos hj]
      · rw [dif_neg hj, dif_neg]
        rintro ⟨g, h⟩
        have := (mem_wholeWords hn).1 h
        omega
  · have hp : t.params = s.params := hmv.params
    have hown : t.owner = s.owner := congrArg SwPart.owner hsw
    have hpc : t.pc = ⟨s.pc.op, s.pc.t + n / 4⟩ := congrArg SwPart.pc hsw
    have h1t : b ∉ t.avOut := fun m => h1 (hmv.avOut.subset m)
    have h2t : b ∉ t.avSetup := fun m => h2 (hmv.avSetup.subset m)
    have hrd := busRead_bufRead (k := tailWord n) (s := t) (by rw [State.ownerOf, hown]; exact ho) h1t h2t
    let u : State := { (devPoint t).tick with
      mem := storeBytes t.mem (data + 4 * (n / 4)) (wordBytes (t.bufWord b (tailWord n)) (n % 4)) }
    have hmw : memWriteBytes (data + 4 * (n / 4)) (wordBytes (t.bufWord b (tailWord n)) (n % 4)) (devPoint t).tick =
        .next u := by
      rw [memWriteBytes_next]
      · simp [u]
      · intro i hi
        simp only [length_wordBytes] at hi
        simp only [tick_params, devPoint_params, hp]
        rw [Nat.add_assoc]
        exact hm _ (by omega)
    have humv : Moved b t u := Moved.of_point rfl fun _ _ => rfl
    have hub : u.bufMem[b] = t.bufMem[b] := (devPoint_le t).buf b h1t h2t
    refine ⟨u, ?_, hmv.trans humv, hub.trans htb, storeBytes_wf hwt _ _, ?_, ?_, ?_⟩
    · simp only [fromDevice, if_neg hcond1, if_neg hcond2, hb, ht, andThen_next, getTail, if_neg hr, hrd, hmw]
    · have hsu : u.swPart = { t.swPart with pc := ⟨t.pc.op, t.pc.t + 1⟩, mem := u.mem } := by
        have := (devPoint_frame t).1
        simp only [State.swPart, SwPart.mk.injEq] at this ⊢
        simp [u]
      rw [hsu, hsw, hpc]
      have hc : n / 4 + 1 = copyCount n := by simp [copyCount]; omega
      simp [← hc, Nat.add_assoc]
    · intro hqs
      have hqt : t.sched = [] := (show t.sched = s.sched by rw [(hmv.quiet hqs).1]).trans hqs
      have : u.bufMem = t.bufMem := by simp [u, devPoint_quiet hqt]
      exact this.trans (hq hqs)
    · intro a
      have htw : (tailWord n).val = n / 4 := by simp [tailWord, Fin.ofNat]; omega
      show Memory.get (storeBytes t.mem (data + 4 * (n / 4)) (wordBytes (t.bufWord b (tailWord n)) (n % 4))) a = _
      rw [storeBytes_get hwt, length_wordBytes]
      by_cases hj : data + 4 * (n / 4) ≤ a ∧ a < data + 4 * (n / 4) + n % 4
      · rw [if_pos hj, dif_pos (by omega), wordBytes_getD _ _ _ (by omega), byteOfWord_bufWord _ _ _ _ (by omega),
          bufByte_congr htb]
        congr 1
        apply Fin.ext
        simp only [byteIx, htw]; omega
      · rw [if_neg hj]
        refine (hby a).trans ?_
        by_cases hj' : data ≤ a ∧ a < data + n
        · rw [dif_pos ⟨hj'.1, (mem_wholeWords hn).2 (by omega)⟩, dif_pos hj']
        · rw [dif_neg hj', dif_neg]
          rintro ⟨g, h⟩
          have := (mem_wholeWords hn).1 h
          omega

end Sys2Proof.Machine
end

