-- ==== Sys2Proof/Laws/Decode.lean ====
section
/-! SUPPORT. What the decoder answers for a word transaction, at every layout R8 allows: one lemma for the registers,
one for the buffers, one for the offsets that hold neither. -/

namespace Sys2Proof.Machine

/-- A word descriptor passes the checks of R112, and its offset alone says what it accesses. -/
theorem decode_word (p : Params) (write : Bool) (off : Nat) (v : Word) (x : Slots) (h : off < 4096) (h4 : off % 4 = 0) :
    decode p ⟨BitVec.ofNat 32 ((if write then 0x5000 else 0x4000) + off), v, x⟩ = wordAccess p write off v := by
  have hn : (if write then 0x5000 else 0x4000) + off = 16384 + 4096 * write.toNat + off := by cases write <;> simp
  have hw : write.toNat ≤ 1 := by cases write <;> simp
  have ho : bitField (16384 + 4096 * write.toNat + off) 0 12 = off := by simp only [bitField]; omega
  have hd : bitField (16384 + 4096 * write.toNat + off) 12 1 = write.toNat := by simp only [bitField]; omega
  have hs : bitField (16384 + 4096 * write.toNat + off) 13 2 = 2 := by simp only [bitField]; omega
  have ht : bitField (16384 + 4096 * write.toNat + off) 15 17 = 0 := by simp only [bitField]; omega
  have hf : bitField (16384 + 4096 * write.toNat + off) 31 1 = 0 := by simp only [bitField]; omega
  rw [hn]
  simp [decode, decodeTransaction, Nat.mod_eq_of_lt (by omega : 16384 + 4096 * write.toNat + off < 4294967296), ho, hd,
    hs, ht, hf, h4]

/-- A word access in the register block is the access to its register. -/
theorem wordAccess_register (p : Params) (hp : p.LayoutOk) (write : Bool) (k : Nat) (hk : k < 36) (v : Word) (i : Instr)
    (hi : registerAccess write k v = some i) : wordAccess p write (p.regBase + 4 * k) v = .ok i := by
  obtain ⟨-, -, hend, -, -⟩ := hp
  simp only [Config.regBytes] at hend
  rw [wordAccess, if_neg (by simp only [Params.InBuffers]; omega), if_pos (by omega),
    show (p.regBase + 4 * k - p.regBase) / 4 = k by omega, hi]

/-- A word access in packet buffer memory is the access to its buffer word. -/
theorem wordAccess_buffer (p : Params) (write : Bool) (b : BufId) (k : WordIx) (v : Word) :
    wordAccess p write (bufOff p b k) v = .ok (if write then .wrBuf b k v else .rdBuf b k) := by
  have hj : bufOff p b k - p.bufBase = 64 * b.val + 4 * k.val := by simp only [bufOff]; omega
  rw [wordAccess, if_pos (by simp only [Params.InBuffers, Config.bufMemBytes, bufOff]; omega), hj]
  have h1 : Fin.ofNat 32 ((64 * b.val + 4 * k.val) / 64) = b := Fin.ext (by simp only [Fin.ofNat]; omega)
  have h2 : Fin.ofNat 16 ((64 * b.val + 4 * k.val) / 4) = k := Fin.ext (by simp only [Fin.ofNat]; omega)
  simp only [bufferAccess, h1, h2]

/-- A word access that holds neither a register nor a buffer is an unmapped one. -/
theorem wordAccess_unmapped (p : Params) (write : Bool) (off : Nat) (v : Word) (h4 : off % 4 = 0)
    (hr : ¬p.InRegisters off) (hb : ¬p.InBuffers off) : wordAccess p write off v = unmappedAccess write off v := by
  rw [wordAccess, if_neg hb]
  by_cases h : p.regBase ≤ off
  · have : 36 ≤ (off - p.regBase) / 4 := by
      simp only [Params.InRegisters, Config.regBytes] at hr; omega
    have hn : registerAccess write ((off - p.regBase) / 4) v = none := by
      cases write <;> simp [registerAccess, registerReads, registerWrites, this]
    rw [if_pos h, hn]
  · rw [if_neg h]

/-- The read descriptor of a register. -/
theorem registerCommand_read (k : Nat) (hk : k < 36) (i : Instr) (hi : registerReads[k]? = some i) :
    RegisterCommand (BitVec.ofNat 32 (0x4000 + 4 * k)) fun _ => i := fun p v x hp => by
  have ⟨h4, _, hend, hw, hpage⟩ := hp
  simp only [Config.regBytes, Config.bufMemBytes, Config.pageBytes] at hend hw hpage
  rw [← BitVec.ofNat_add, show 0x4000 + 4 * k + p.regBase = (if false then 0x5000 else 0x4000) + (p.regBase + 4 * k) by
    simp; omega, decode_word p false _ v x (by omega) (by omega), wordAccess_register p hp false k hk v i hi]

/-- The write descriptor of a register. -/
theorem registerCommand_write (k : Nat) (hk : k < 36) (i : Word → Instr) (hi : registerWrites[k]? = some i) :
    RegisterCommand (BitVec.ofNat 32 (0x5000 + 4 * k)) i := fun p v x hp => by
  have ⟨h4, _, hend, hw, hpage⟩ := hp
  simp only [Config.regBytes, Config.bufMemBytes, Config.pageBytes] at hend hw hpage
  rw [← BitVec.ofNat_add, show 0x5000 + 4 * k + p.regBase = (if true then 0x5000 else 0x4000) + (p.regBase + 4 * k) by
    simp; omega, decode_word p true _ v x (by omega) (by omega),
    wordAccess_register p hp true k hk v (i v) (by simp [registerAccess, hi])]

end Sys2Proof.Machine
end

