-- ==== Sys2Proof/Laws/PerInstr.lean ====
section
/-! SUPPORT. The encoder against the opcode table: at the default layout, under the mask of its row, the descriptor of every
instruction is the row's match value, both copied from spec/opcode_table.json. -/

namespace Sys2Proof.Laws.EncodesRow

/-- The mask and the match value of an instruction's row in spec/opcode_table.json. -/
def row : Instr → Word × Word
  | .rdIntrState => (0xFFFFFFFF#32, 0x00004000#32)
  | .wrIntrState _ => (0xFFFFFFFF#32, 0x00005000#32)
  | .rdIntrEnable => (0xFFFFFFFF#32, 0x00004004#32)
  | .wrIntrEnable _ => (0xFFFFFFFF#32, 0x00005004#32)
  | .rdIntrTest => (0xFFFFFFFF#32, 0x00004008#32)
  | .wrIntrTest _ => (0xFFFFFFFF#32, 0x00005008#32)
  | .rdAlertTest => (0xFFFFFFFF#32, 0x0000400C#32)
  | .wrAlertTest _ => (0xFFFFFFFF#32, 0x0000500C#32)
  | .rdUsbctrl => (0xFFFFFFFF#32, 0x00004010#32)
  | .wrUsbctrl _ => (0xFFFFFFFF#32, 0x00005010#32)
  | .rdEpOutEnable => (0xFFFFFFFF#32, 0x00004014#32)
  | .wrEpOutEnable _ => (0xFFFFFFFF#32, 0x00005014#32)
  | .rdEpInEnable => (0xFFFFFFFF#32, 0x00004018#32)
  | .wrEpInEnable _ => (0xFFFFFFFF#32, 0x00005018#32)
  | .rdUsbstat => (0xFFFFFFFF#32, 0x0000401C#32)
  | .wrUsbstat _ => (0xFFFFFFFF#32, 0x0000501C#32)
  | .rdAvoutbuffer => (0xFFFFFFFF#32, 0x00004020#32)
  | .wrAvoutbuffer _ => (0xFFFFFFFF#32, 0x00005020#32)
  | .rdAvsetupbuffer => (0xFFFFFFFF#32, 0x00004024#32)
  | .wrAvsetupbuffer _ => (0xFFFFFFFF#32, 0x00005024#32)
  | .rdRxfifo => (0xFFFFFFFF#32, 0x00004028#32)
  | .wrRxfifo _ => (0xFFFFFFFF#32, 0x00005028#32)
  | .rdRxenableSetup => (0xFFFFFFFF#32, 0x0000402C#32)
  | .wrRxenableSetup _ => (0xFFFFFFFF#32, 0x0000502C#32)
  | .rdRxenableOut => (0xFFFFFFFF#32, 0x00004030#32)
  | .wrRxenableOut _ => (0xFFFFFFFF#32, 0x00005030#32)
  | .rdSetNakOut => (0xFFFFFFFF#32, 0x00004034#32)
  | .wrSetNakOut _ => (0xFFFFFFFF#32, 0x00005034#32)
  | .rdInSent => (0xFFFFFFFF#32, 0x00004038#32)
  | .wrInSent _ => (0xFFFFFFFF#32, 0x00005038#32)
  | .rdOutStall => (0xFFFFFFFF#32, 0x0000403C#32)
  | .wrOutStall _ => (0xFFFFFFFF#32, 0x0000503C#32)
  | .rdInStall => (0xFFFFFFFF#32, 0x00004040#32)
  | .wrInStall _ => (0xFFFFFFFF#32, 0x00005040#32)
  | .rdConfigin0 => (0xFFFFFFFF#32, 0x00004044#32)
  | .wrConfigin0 _ => (0xFFFFFFFF#32, 0x00005044#32)
  | .rdConfigin1 => (0xFFFFFFFF#32, 0x00004048#32)
  | .wrConfigin1 _ => (0xFFFFFFFF#32, 0x00005048#32)
  | .rdConfigin2 => (0xFFFFFFFF#32, 0x0000404C#32)
  | .wrConfigin2 _ => (0xFFFFFFFF#32, 0x0000504C#32)
  | .rdConfigin3 => (0xFFFFFFFF#32, 0x00004050#32)
  | .wrConfigin3 _ => (0xFFFFFFFF#32, 0x00005050#32)
  | .rdConfigin4 => (0xFFFFFFFF#32, 0x00004054#32)
  | .wrConfigin4 _ => (0xFFFFFFFF#32, 0x00005054#32)
  | .rdConfigin5 => (0xFFFFFFFF#32, 0x00004058#32)
  | .wrConfigin5 _ => (0xFFFFFFFF#32, 0x00005058#32)
  | .rdConfigin6 => (0xFFFFFFFF#32, 0x0000405C#32)
  | .wrConfigin6 _ => (0xFFFFFFFF#32, 0x0000505C#32)
  | .rdConfigin7 => (0xFFFFFFFF#32, 0x00004060#32)
  | .wrConfigin7 _ => (0xFFFFFFFF#32, 0x00005060#32)
  | .rdConfigin8 => (0xFFFFFFFF#32, 0x00004064#32)
  | .wrConfigin8 _ => (0xFFFFFFFF#32, 0x00005064#32)
  | .rdConfigin9 => (0xFFFFFFFF#32, 0x00004068#32)
  | .wrConfigin9 _ => (0xFFFFFFFF#32, 0x00005068#32)
  | .rdConfigin10 => (0xFFFFFFFF#32, 0x0000406C#32)
  | .wrConfigin10 _ => (0xFFFFFFFF#32, 0x0000506C#32)
  | .rdConfigin11 => (0xFFFFFFFF#32, 0x00004070#32)
  | .wrConfigin11 _ => (0xFFFFFFFF#32, 0x00005070#32)
  | .rdOutIso => (0xFFFFFFFF#32, 0x00004074#32)
  | .wrOutIso _ => (0xFFFFFFFF#32, 0x00005074#32)
  | .rdInIso => (0xFFFFFFFF#32, 0x00004078#32)
  | .wrInIso _ => (0xFFFFFFFF#32, 0x00005078#32)
  | .rdOutDataToggle => (0xFFFFFFFF#32, 0x0000407C#32)
  | .wrOutDataToggle _ => (0xFFFFFFFF#32, 0x0000507C#32)
  | .rdInDataToggle => (0xFFFFFFFF#32, 0x00004080#32)
  | .wrInDataToggle _ => (0xFFFFFFFF#32, 0x00005080#32)
  | .rdPhyPinsSense => (0xFFFFFFFF#32, 0x00004084#32)
  | .wrPhyPinsSense _ => (0xFFFFFFFF#32, 0x00005084#32)
  | .rdPhyPinsDrive => (0xFFFFFFFF#32, 0x00004088#32)
  | .wrPhyPinsDrive _ => (0xFFFFFFFF#32, 0x00005088#32)
  | .rdPhyConfig => (0xFFFFFFFF#32, 0x0000408C#32)
  | .wrPhyConfig _ => (0xFFFFFFFF#32, 0x0000508C#32)
  | .rdBuf _ _ => (0xFFFFF803#32, 0x00004800#32)
  | .wrBuf _ _ _ => (0xFFFFF803#32, 0x00005800#32)
  | .wrBufB _ _ _ => (0xFFFFF800#32, 0x00001800#32)
  | .wrBufH _ _ _ => (0xFFFFF801#32, 0x00003800#32)
  | .rdUnmapped090 _ => (0xFFFFFFF3#32, 0x00004090#32)
  | .wrUnmapped090 _ _ => (0xFFFFFFF3#32, 0x00005090#32)
  | .rdUnmapped0A0 _ => (0xFFFFFFE3#32, 0x000040A0#32)
  | .wrUnmapped0A0 _ _ => (0xFFFFFFE3#32, 0x000050A0#32)
  | .rdUnmapped0C0 _ => (0xFFFFFFC3#32, 0x000040C0#32)
  | .wrUnmapped0C0 _ _ => (0xFFFFFFC3#32, 0x000050C0#32)
  | .rdUnmapped100 _ => (0xFFFFFF03#32, 0x00004100#32)
  | .wrUnmapped100 _ _ => (0xFFFFFF03#32, 0x00005100#32)
  | .rdUnmapped200 _ => (0xFFFFFE03#32, 0x00004200#32)
  | .wrUnmapped200 _ _ => (0xFFFFFE03#32, 0x00005200#32)
  | .rdUnmapped400 _ => (0xFFFFFC03#32, 0x00004400#32)
  | .wrUnmapped400 _ _ => (0xFFFFFC03#32, 0x00005400#32)
  | .init => (0xFFFFFFFF#32, 0x80000000#32)
  | .configureOutEndpoint _ _ _ _ => (0xFFFFFFFF#32, 0x81000000#32)
  | .configureInEndpoint _ _ _ => (0xFFFFFFFF#32, 0x82000000#32)
  | .setEpStalling _ _ => (0xFFFFFFFF#32, 0x83000000#32)
  | .setDeviceAddress _ => (0xFFFFFFFF#32, 0x84000000#32)
  | .connect => (0xFFFFFFFF#32, 0x85000000#32)
  | .disconnect => (0xFFFFFFFF#32, 0x86000000#32)
  | .connected => (0xFFFFFFFF#32, 0x87000000#32)
  | .supplyBuffers _ => (0xFFFFFFFF#32, 0x88000000#32)
  | .sendPacket _ _ _ _ => (0xFFFFFFFF#32, 0x89000000#32)
  | .packetCollected => (0xFFFFFFFF#32, 0x8A000000#32)
  | .recvPacket _ => (0xFFFFFFFF#32, 0x8B000000#32)
  | .transferToDevice _ _ _ => (0xFFFFFFFF#32, 0x8C000000#32)
  | .transferFromDevice _ _ _ => (0xFFFFFFFF#32, 0x8D000000#32)
  | .interruptEnable _ => (0xFFFFFFFF#32, 0x8E000000#32)
  | .interruptDisable _ => (0xFFFFFFFF#32, 0x8F000000#32)

/-- The descriptor of the instruction lies in its row. -/
def Statement (i : Instr) : Prop := (encode .default i).desc &&& (row i).1 = (row i).2

/-- A row with no field: its mask keeps the whole descriptor. -/
theorem whole (d : Word) : d &&& 0xFFFFFFFF#32 = d := BitVec.and_allOnes

theorem rdIntrState : Statement (.rdIntrState) := whole 0x4000#32
theorem wrIntrState (v : Word) : Statement (.wrIntrState v) := whole 0x5000#32
theorem rdIntrEnable : Statement (.rdIntrEnable) := whole 0x4004#32
theorem wrIntrEnable (v : Word) : Statement (.wrIntrEnable v) := whole 0x5004#32
theorem rdIntrTest : Statement (.rdIntrTest) := whole 0x4008#32
theorem wrIntrTest (v : Word) : Statement (.wrIntrTest v) := whole 0x5008#32
theorem rdAlertTest : Statement (.rdAlertTest) := whole 0x400C#32
theorem wrAlertTest (v : Word) : Statement (.wrAlertTest v) := whole 0x500C#32
theorem rdUsbctrl : Statement (.rdUsbctrl) := whole 0x4010#32
theorem wrUsbctrl (v : Word) : Statement (.wrUsbctrl v) := whole 0x5010#32
theorem rdEpOutEnable : Statement (.rdEpOutEnable) := whole 0x4014#32
theorem wrEpOutEnable (v : Word) : Statement (.wrEpOutEnable v) := whole 0x5014#32
theorem rdEpInEnable : Statement (.rdEpInEnable) := whole 0x4018#32
theorem wrEpInEnable (v : Word) : Statement (.wrEpInEnable v) := whole 0x5018#32
theorem rdUsbstat : Statement (.rdUsbstat) := whole 0x401C#32
theorem wrUsbstat (v : Word) : Statement (.wrUsbstat v) := whole 0x501C#32
theorem rdAvoutbuffer : Statement (.rdAvoutbuffer) := whole 0x4020#32
theorem wrAvoutbuffer (v : Word) : Statement (.wrAvoutbuffer v) := whole 0x5020#32
theorem rdAvsetupbuffer : Statement (.rdAvsetupbuffer) := whole 0x4024#32
theorem wrAvsetupbuffer (v : Word) : Statement (.wrAvsetupbuffer v) := whole 0x5024#32
theorem rdRxfifo : Statement (.rdRxfifo) := whole 0x4028#32
theorem wrRxfifo (v : Word) : Statement (.wrRxfifo v) := whole 0x5028#32
theorem rdRxenableSetup : Statement (.rdRxenableSetup) := whole 0x402C#32
theorem wrRxenableSetup (v : Word) : Statement (.wrRxenableSetup v) := whole 0x502C#32
theorem rdRxenableOut : Statement (.rdRxenableOut) := whole 0x4030#32
theorem wrRxenableOut (v : Word) : Statement (.wrRxenableOut v) := whole 0x5030#32
theorem rdSetNakOut : Statement (.rdSetNakOut) := whole 0x4034#32
theorem wrSetNakOut (v : Word) : Statement (.wrSetNakOut v) := whole 0x5034#32
theorem rdInSent : Statement (.rdInSent) := whole 0x4038#32
theorem wrInSent (v : Word) : Statement (.wrInSent v) := whole 0x5038#32
theorem rdOutStall : Statement (.rdOutStall) := whole 0x403C#32
theorem wrOutStall (v : Word) : Statement (.wrOutStall v) := whole 0x503C#32
theorem rdInStall : Statement (.rdInStall) := whole 0x4040#32
theorem wrInStall (v : Word) : Statement (.wrInStall v) := whole 0x5040#32
theorem rdConfigin0 : Statement (.rdConfigin0) := whole 0x4044#32
theorem wrConfigin0 (v : Word) : Statement (.wrConfigin0 v) := whole 0x5044#32
theorem rdConfigin1 : Statement (.rdConfigin1) := whole 0x4048#32
theorem wrConfigin1 (v : Word) : Statement (.wrConfigin1 v) := whole 0x5048#32
theorem rdConfigin2 : Statement (.rdConfigin2) := whole 0x404C#32
theorem wrConfigin2 (v : Word) : Statement (.wrConfigin2 v) := whole 0x504C#32
theorem rdConfigin3 : Statement (.rdConfigin3) := whole 0x4050#32
theorem wrConfigin3 (v : Word) : Statement (.wrConfigin3 v) := whole 0x5050#32
theorem rdConfigin4 : Statement (.rdConfigin4) := whole 0x4054#32
theorem wrConfigin4 (v : Word) : Statement (.wrConfigin4 v) := whole 0x5054#32
theorem rdConfigin5 : Statement (.rdConfigin5) := whole 0x4058#32
theorem wrConfigin5 (v : Word) : Statement (.wrConfigin5 v) := whole 0x5058#32
theorem rdConfigin6 : Statement (.rdConfigin6) := whole 0x405C#32
theorem wrConfigin6 (v : Word) : Statement (.wrConfigin6 v) := whole 0x505C#32
theorem rdConfigin7 : Statement (.rdConfigin7) := whole 0x4060#32
theorem wrConfigin7 (v : Word) : Statement (.wrConfigin7 v) := whole 0x5060#32
theorem rdConfigin8 : Statement (.rdConfigin8) := whole 0x4064#32
theorem wrConfigin8 (v : Word) : Statement (.wrConfigin8 v) := whole 0x5064#32
theorem rdConfigin9 : Statement (.rdConfigin9) := whole 0x4068#32
theorem wrConfigin9 (v : Word) : Statement (.wrConfigin9 v) := whole 0x5068#32
theorem rdConfigin10 : Statement (.rdConfigin10) := whole 0x406C#32
theorem wrConfigin10 (v : Word) : Statement (.wrConfigin10 v) := whole 0x506C#32
theorem rdConfigin11 : Statement (.rdConfigin11) := whole 0x4070#32
theorem wrConfigin11 (v : Word) : Statement (.wrConfigin11 v) := whole 0x5070#32
theorem rdOutIso : Statement (.rdOutIso) := whole 0x4074#32
theorem wrOutIso (v : Word) : Statement (.wrOutIso v) := whole 0x5074#32
theorem rdInIso : Statement (.rdInIso) := whole 0x4078#32
theorem wrInIso (v : Word) : Statement (.wrInIso v) := whole 0x5078#32
theorem rdOutDataToggle : Statement (.rdOutDataToggle) := whole 0x407C#32
theorem wrOutDataToggle (v : Word) : Statement (.wrOutDataToggle v) := whole 0x507C#32
theorem rdInDataToggle : Statement (.rdInDataToggle) := whole 0x4080#32
theorem wrInDataToggle (v : Word) : Statement (.wrInDataToggle v) := whole 0x5080#32
theorem rdPhyPinsSense : Statement (.rdPhyPinsSense) := whole 0x4084#32
theorem wrPhyPinsSense (v : Word) : Statement (.wrPhyPinsSense v) := whole 0x5084#32
theorem rdPhyPinsDrive : Statement (.rdPhyPinsDrive) := whole 0x4088#32
theorem wrPhyPinsDrive (v : Word) : Statement (.wrPhyPinsDrive v) := whole 0x5088#32
theorem rdPhyConfig : Statement (.rdPhyConfig) := whole 0x408C#32
theorem wrPhyConfig (v : Word) : Statement (.wrPhyConfig v) := whole 0x508C#32
theorem rdBuf (b : BufId) (k : WordIx) : Statement (.rdBuf b k) := by
  simp only [Statement, encode, row]; revert b k; decide
theorem wrBuf (b : BufId) (k : WordIx) (v : Word) : Statement (.wrBuf b k v) := by
  simp only [Statement, encode, writeTd, row]; revert b k; decide
theorem wrBufB (b : BufId) (j : ByteIx) (v : Word) : Statement (.wrBufB b j v) := by
  simp only [Statement, encode, row]; revert b j; decide
theorem wrBufH (b : BufId) (h : Fin 32) (v : Word) : Statement (.wrBufH b h v) := by
  simp only [Statement, encode, row]; revert b h; decide
theorem rdUnmapped090 (k : Fin 4) : Statement (.rdUnmapped090 k) := by
  simp only [Statement, encode, row]; revert k; decide
theorem wrUnmapped090 (k : Fin 4) (v : Word) : Statement (.wrUnmapped090 k v) := by
  simp only [Statement, encode, writeTd, row]; revert k; decide
theorem rdUnmapped0A0 (k : Fin 8) : Statement (.rdUnmapped0A0 k) := by
  simp only [Statement, encode, row]; revert k; decide
theorem wrUnmapped0A0 (k : Fin 8) (v : Word) : Statement (.wrUnmapped0A0 k v) := by
  simp only [Statement, encode, writeTd, row]; revert k; decide
theorem rdUnmapped0C0 (k : Fin 16) : Statement (.rdUnmapped0C0 k) := by
  simp only [Statement, encode, row]; revert k; decide
theorem wrUnmapped0C0 (k : Fin 16) (v : Word) : Statement (.wrUnmapped0C0 k v) := by
  simp only [Statement, encode, writeTd, row]; revert k; decide
theorem rdUnmapped100 (k : Fin 64) : Statement (.rdUnmapped100 k) := by
  simp only [Statement, encode, row]; revert k; decide
theorem wrUnmapped100 (k : Fin 64) (v : Word) : Statement (.wrUnmapped100 k v) := by
  simp only [Statement, encode, writeTd, row]; revert k; decide
theorem rdUnmapped200 (k : Fin 128) : Statement (.rdUnmapped200 k) := by
  simp only [Statement, encode, row]; revert k; decide
theorem wrUnmapped200 (k : Fin 128) (v : Word) : Statement (.wrUnmapped200 k v) := by
  simp only [Statement, encode, writeTd, row]; revert k; decide
set_option maxRecDepth 2000 in
theorem rdUnmapped400 (k : Fin 256) : Statement (.rdUnmapped400 k) := by
  simp only [Statement, encode, row]; revert k; decide
set_option maxRecDepth 2000 in
theorem wrUnmapped400 (k : Fin 256) (v : Word) : Statement (.wrUnmapped400 k v) := by
  simp only [Statement, encode, writeTd, row]; revert k; decide
theorem init : Statement (.init) := whole 0x80000000#32
theorem configureOutEndpoint (ep enabled setup iso : Nat) : Statement (.configureOutEndpoint ep enabled setup iso) :=
  whole 0x81000000#32
theorem configureInEndpoint (ep enabled iso : Nat) : Statement (.configureInEndpoint ep enabled iso) :=
  whole 0x82000000#32
theorem setEpStalling (ep : Nat) (stalling : Nat) : Statement (.setEpStalling ep stalling) := whole 0x83000000#32
theorem setDeviceAddress (address : Nat) : Statement (.setDeviceAddress address) := whole 0x84000000#32
theorem connect : Statement (.connect) := whole 0x85000000#32
theorem disconnect : Statement (.disconnect) := whole 0x86000000#32
theorem connected : Statement (.connected) := whole 0x87000000#32
theorem supplyBuffers (bitmap : Nat) : Statement (.supplyBuffers bitmap) := whole 0x88000000#32
theorem sendPacket (buf : Nat) (ep : Nat) (data : Nat) (size : Nat) : Statement (.sendPacket buf ep data size) :=
  whole 0x89000000#32
theorem packetCollected : Statement (.packetCollected) := whole 0x8A000000#32
theorem recvPacket (data : Nat) : Statement (.recvPacket data) := whole 0x8B000000#32
theorem transferToDevice (buf : Nat) (data : Nat) (size : Nat) : Statement (.transferToDevice buf data size) :=
  whole 0x8C000000#32
theorem transferFromDevice (buf : Nat) (data : Nat) (size : Nat) : Statement (.transferFromDevice buf data size) :=
  whole 0x8D000000#32
theorem interruptEnable (mask : Nat) : Statement (.interruptEnable mask) := whole 0x8E000000#32
theorem interruptDisable (mask : Nat) : Statement (.interruptDisable mask) := whole 0x8F000000#32

end Sys2Proof.Laws.EncodesRow
end

