-- ==== Sys2Proof/Tests/Slice0.lean ====
section
/-! SUPPORT. Tests of the model against the vectors of spec/95_test_vectors.md (named in each comment) and against
hand decoding of the spec's encodings, and, for every obligation with hypotheses, a witness that meets them. -/

namespace Sys2Proof.Machine.Tests

/-! ### Small states and questions -/

/-- The reset state with its draws and open parameters fixed to convenient values. -/
def small : State := { State.reset with
  params := { Params.default with setupClearsStall := true, usbdevPage := 0x40000#20 }
  sense := false, phyConfig := 0#32, bufMem := Vector.replicate 32 (Vector.replicate 64 0#8) }

/-- The start of the link vectors (2.8), with buffer 3 in CONFIGIN1 only. -/
def linked : State := { small with
  usbctrl := 1#32, epOutEnable := 1#32, rxEnableSetup := 1#32, rxEnableOut := 1#32, epInEnable := 2#32
  avSetup := [0, 1, 2], avOut := [4, 5]
  configIn := small.configIn.set 1 0x80000303#32, inOwn := small.inOwn.set 1 (some 3)
  owner := Vector.ofFn fun b => if b.val < 6 then .hw else .sw
  bufMem := small.bufMem.set 3 (((small.bufMem[3].set 0 0x11#8).set 1 0x22#8).set 2 0x23#8) }

/-- `linked` with endpoint 1's packet in flight. -/
def sending : State := { linked with configIn := linked.configIn.set 1 0xA0000303#32 }

/-- Two completions wait, for buffers 3 and 9 (V-PC-1). -/
def completed : State := { small with
  inSent := 6#32, configIn := (small.configIn.set 1 0x303#32).set 2 0x109#32
  inOwn := (small.inOwn.set 1 (some 3)).set 2 (some 9), owner := (small.owner.set 3 .hw).set 9 .hw }

/-- One packet of `n` bytes waits in buffer 5, whose bytes count up from 1. -/
def received (n : Nat) (setup : Bool) (ep : Nat) : State := { small with
  rx := [⟨5, BitVec.ofNat 7 n, setup, BitVec.ofNat 4 ep⟩], owner := small.owner.set 5 .hw
  bufMem := small.bufMem.set 5 (Vector.ofFn fun j => BitVec.ofNat 8 (j.val + 1)) }

/-- The bytes 1, 2, .. n stand in memory from 0x20000000 on. -/
def withBytes (n : Nat) (s : State) : State :=
  { s with mem := (List.range n).map fun i => (0x20000000 + i, BitVec.ofNat 8 (i + 1)) }

/-- The outcome is a next state with a property. -/
def reaches (o : Host.Outcome State Fault Refusal) (p : State → Bool) : Bool :=
  match o with
  | .next t => p t
  | _ => false

/-- The verdict of a fault. -/
def verdict (o : Host.Outcome State Fault Refusal) : Option FaultReason :=
  match o with
  | .fault f => f.reason
  | _ => none

/-- The step of `DEV` is taken and leads to a state with a property. -/
def taken (o : Option State) (p : State → Bool) : Bool := o.any p

/-! ### Decoding: words written out from R111, R113 and R115, and from the vectors V-DE -/

/-- Bit by bit: SZ = 10 (word), W, then the twelve bits of OFF. -/
theorem test_decode_registers :
    decode .default ⟨0b00000000000000000_10_0_000000000000#32, 0#32, {}⟩ = .ok .rdIntrState ∧
    decode .default ⟨0b00000000000000000_10_1_000000010000#32, 0x50001#32, {}⟩ = .ok (.wrUsbctrl 0x50001#32) ∧
    decode .default ⟨0b00000000000000000_10_0_000000101000#32, 0#32, {}⟩ = .ok .rdRxfifo ∧
    decode .default ⟨0b00000000000000000_10_1_000000100100#32, 3#32, {}⟩ = .ok (.wrAvsetupbuffer 3#32) ∧
    decode .default ⟨0b00000000000000000_10_0_000010001100#32, 0#32, {}⟩ = .ok .rdPhyConfig := by decide

/-- CONFIGIN[e] is at 0x044 + 4e: endpoints 0, 1 and 11. -/
theorem test_decode_configin :
    decode .default ⟨0b00000000000000000_10_0_000001000100#32, 0#32, {}⟩ = .ok .rdConfigin0 ∧
    decode .default ⟨0b00000000000000000_10_1_000001001000#32, 0x303#32, {}⟩ = .ok (.wrConfigin1 0x303#32) ∧
    decode .default ⟨0b00000000000000000_10_1_000001110000#32, 9#32, {}⟩ = .ok (.wrConfigin11 9#32) := by decide

/-- V-DE-8, V-DE-10, V-DE-13, and BUF3 word 0 (0x58C0). -/
theorem test_decode_buffers :
    decode .default ⟨0b00000000000000000_10_0_111111111100#32, 0#32, {}⟩ = .ok (.rdBuf 31 15) ∧
    decode .default ⟨0b00000000000000000_10_1_100011000000#32, 7#32, {}⟩ = .ok (.wrBuf 3 0 7#32) ∧
    decode .default ⟨0b00000000000000000_00_1_100000000001#32, 0xAA#32, {}⟩ = .ok (.wrBufB 0 1 0xAA#32) ∧
    decode .default ⟨0b00000000000000000_01_1_100000000010#32, 0xBEEF#32, {}⟩ = .ok (.wrBufH 0 1 0xBEEF#32) := by decide

/-- V-DE-11 and V-DE-12, and the first and last offset of every unmapped row. -/
theorem test_decode_unmapped :
    decode .default ⟨0x4090#32, 0#32, {}⟩ = .ok (.rdUnmapped090 0) ∧ decode .default ⟨0x509C#32, 1#32, {}⟩ = .ok (.wrUnmapped090 3 1#32) ∧
    decode .default ⟨0x40A0#32, 0#32, {}⟩ = .ok (.rdUnmapped0A0 0) ∧ decode .default ⟨0x50BC#32, 1#32, {}⟩ = .ok (.wrUnmapped0A0 7 1#32) ∧
    decode .default ⟨0x40C0#32, 0#32, {}⟩ = .ok (.rdUnmapped0C0 0) ∧ decode .default ⟨0x50FC#32, 1#32, {}⟩ = .ok (.wrUnmapped0C0 15 1#32) ∧
    decode .default ⟨0x4100#32, 0#32, {}⟩ = .ok (.rdUnmapped100 0) ∧ decode .default ⟨0x51FC#32, 1#32, {}⟩ = .ok (.wrUnmapped100 63 1#32) ∧
    decode .default ⟨0x4200#32, 0#32, {}⟩ = .ok (.rdUnmapped200 0) ∧ decode .default ⟨0x53FC#32, 1#32, {}⟩ = .ok (.wrUnmapped200 127 1#32) ∧
    decode .default ⟨0x4400#32, 0#32, {}⟩ = .ok (.rdUnmapped400 0) ∧
    decode .default ⟨0x57FC#32, 1#32, {}⟩ = .ok (.wrUnmapped400 255 1#32) := by decide

/-- Bit 31, 30:28 zero, OPC in 27:24, 23:0 zero; V-DE-14 and V-DE-17. -/
theorem test_decode_operations :
    decode .default ⟨0b1_000_0001_000000000000000000000000#32, 0#32, ⟨0, 1, 1, 0, 0, 0⟩⟩ = .ok (.configureOutEndpoint 0 1 1 0) ∧
    decode .default ⟨0b1_000_1001_000000000000000000000000#32, 0#32, ⟨3, 1, 0x20000000, 3, 0, 0⟩⟩ =
      .ok (.sendPacket 3 1 0x20000000 3) ∧
    decode .default ⟨0b1_000_1011_000000000000000000000000#32, 0#32, { x0 := 0x20000100 }⟩ = .ok (.recvPacket 0x20000100) ∧
    decode .default ⟨0b1_000_1111_000000000000000000000000#32, 0#32, { x0 := 1 }⟩ = .ok (.interruptDisable 1) := by decide

/-- V-DE-3 to V-DE-7, V-DE-9, V-DE-15, V-DE-16. -/
theorem test_decode_refuses :
    decode .default ⟨0x4002#32, 0#32, {}⟩ = .error .misalignedDeviceAccess ∧
    decode .default ⟨0x6000#32, 0#32, {}⟩ = .error .illegalDescriptor ∧
    decode .default ⟨0x18000#32, 0#32, {}⟩ = .error .illegalDescriptor ∧
    decode .default ⟨0x0800#32, 0#32, {}⟩ = .error .subWordAccess ∧ decode .default ⟨0x1010#32, 0#32, {}⟩ = .error .subWordAccess ∧
    decode .default ⟨0x3801#32, 0#32, {}⟩ = .error .misalignedDeviceAccess ∧
    decode .default ⟨0x80000001#32, 0#32, {}⟩ = .error .illegalDescriptor ∧
    decode .default ⟨0x90000000#32, 0#32, {}⟩ = .error .illegalDescriptor := by decide

/-- Another layout that R8 allows: registers from 0x100, buffers from 0x400, a window of 0xC00 bytes. -/
def moved : Params := { Params.default with regBase := 0x100, bufBase := 0x400, windowBytes := 0xC00 }

/-- R8, R80, R113 by hand at `moved`: USBCTRL is at 0x100 + 0x010, BUF31+0x3C at 0x400 + 0x7FC, 0x200 is unmapped, and
0x010 and 0xC00 hold nothing and have no row. -/
theorem test_decode_moved_layout :
    decode moved ⟨0x4110#32, 0#32, {}⟩ = .ok .rdUsbctrl ∧ decode moved ⟨0x518C#32, 1#32, {}⟩ = .ok (.wrPhyConfig 1#32) ∧
    decode moved ⟨0x4400#32, 0#32, {}⟩ = .ok (.rdBuf 0 0) ∧ decode moved ⟨0x5BFC#32, 7#32, {}⟩ = .ok (.wrBuf 31 15 7#32) ∧
    decode moved ⟨0x1BFF#32, 7#32, {}⟩ = .ok (.wrBufB 31 63 7#32) ∧
    decode moved ⟨0x13FF#32, 7#32, {}⟩ = .error .subWordAccess ∧
    decode moved ⟨0x4200#32, 0#32, {}⟩ = .ok (.rdUnmapped200 0) ∧
    decode moved ⟨0x4010#32, 0#32, {}⟩ = .error .unmappedOffset ∧
    decode moved ⟨0x5C00#32, 0#32, {}⟩ = .error .unmappedOffset ∧
    decode moved ⟨0x1C00#32, 0#32, {}⟩ = .error .unmappedOffset := by decide

/-- R80: the window of `moved` ends at USBDEV_BASE + 0xC00. -/
theorem test_window :
    ({ moved with usbdevPage := 0x40000#20 } : Params).offsetOf 0x40000BFF#32 = some 0xBFF ∧
    ({ moved with usbdevPage := 0x40000#20 } : Params).offsetOf 0x40000C00#32 = none := by decide

/-- The table's numbering: one 32-bit word. -/
theorem test_decode_table_word :
    decodeTableWord 32 0x401C = some .rdUsbstat ∧ decodeTableWord 32 0x8B000000 = some (.recvPacket 0) ∧
    decodeTableWord 32 0x6000 = none ∧ decodeTableWord 32 0x1000401C = none := by decide

/-! ### Well-formedness: each width check refuses an ill-formed term (R116; V-EC-11, V-EC-12) -/

theorem test_wellformed_u8 :
    (Instr.setEpStalling 256 1).wellFormed = false ∧ (Instr.sendPacket 256 0 0 0).wellFormed = false ∧
    (Instr.sendPacket 0 256 0 0).wellFormed = false ∧ (Instr.sendPacket 0 0 0 256).wellFormed = false ∧
    (Instr.configureOutEndpoint 256 0 0 0).wellFormed = false ∧ (Instr.setDeviceAddress 256).wellFormed = false ∧
    (Instr.transferToDevice 256 0 0).wellFormed = false ∧ (Instr.transferFromDevice 0 0 256).wellFormed = false ∧
    (Instr.setEpStalling 255 1).wellFormed = true := by decide

theorem test_wellformed_bool :
    (Instr.configureOutEndpoint 0 2 0 0).wellFormed = false ∧ (Instr.configureOutEndpoint 0 0 2 0).wellFormed = false ∧
    (Instr.configureOutEndpoint 0 0 0 2).wellFormed = false ∧ (Instr.configureInEndpoint 0 2 0).wellFormed = false ∧
    (Instr.configureInEndpoint 0 0 2).wellFormed = false ∧ (Instr.setEpStalling 0 2).wellFormed = false ∧
    (Instr.configureOutEndpoint 0 1 1 1).wellFormed = true := by decide

theorem test_wellformed_u32 :
    (Instr.supplyBuffers 0x100000000).wellFormed = false ∧ (Instr.interruptEnable 0x100000000).wellFormed = false ∧
    (Instr.interruptDisable 0x100000000).wellFormed = false ∧ (Instr.recvPacket 0x100000000).wellFormed = false ∧
    (Instr.sendPacket 0 0 0x100000000 0).wellFormed = false ∧ (Instr.transferToDevice 0 0x100000000 0).wellFormed = false ∧
    (Instr.recvPacket 0xFFFFFFFF).wellFormed = true := by decide

/-! ### Register transactions (2.2) -/

/-- V-RG-1, V-RG-3, V-RG-4. -/
theorem test_interrupt_state :
    reaches (exec (.wrIntrState 1#32) { small with intrState := 3#32 }) (fun t => t.intrState == 2#32) ∧
    reaches (exec (.wrIntrTest 0x20000#32) small) (fun t => t.intrState == 0x20000#32) ∧
    reaches (exec (.wrIntrTest 0xFFFFFFFF#32) small) (fun t => t.intrState == 0x3FFFF#32) := by decide

/-- V-RG-5, V-EX-1, V-EX-2. -/
theorem test_interrupt_enable :
    reaches (exec (.wrIntrEnable 0xFFFFFFFF#32) small) (fun t => t.intrEnable == 0x3FFFF#32) ∧
    ({ small with intrState := 1#32 } : State).irq = false ∧
    reaches (exec (.wrIntrEnable 1#32) { small with intrState := 1#32 }) State.irq := by decide

/-- V-RG-8, V-RG-9. -/
theorem test_usbctrl :
    reaches (exec (.wrUsbctrl 0xFFFFFFFD#32) small) (fun t => t.usbctrl == 0x007F0001#32) ∧
    exec (.wrUsbctrl 2#32) small = .refused (.unknownFieldWrite small.asRefused) := ⟨by decide, rfl⟩

/-- V-RG-10, V-RG-29. -/
theorem test_bitmaps :
    reaches (exec (.wrEpOutEnable 0x1003#32) small) (fun t => t.epOutEnable == 3#32) ∧
    reaches (exec (.wrOutStall 0xFFFFFFFF#32) small) (fun t => t.outStall == 0xFFF#32) := by decide

/-- V-RG-11, V-RG-12. -/
theorem test_usbstat :
    reaches (exec .rdUsbstat small) (fun t => t.results == [0x80000000#32]) ∧
    reaches (exec .rdUsbstat { small with
        avSetup := List.replicate 4 0, avOut := List.replicate 8 0, rx := List.replicate 8 ⟨0, 0, false, 0⟩ })
      (fun t => t.results == [0x48C80000#32]) := by decide

/-- V-RG-15, V-RG-16. -/
theorem test_avoutbuffer :
    reaches (exec (.wrAvoutbuffer 0xFFFFFFE7#32) small)
      (fun t => t.avOut == [7] && t.ownerOf 7 == .hw && t.usbstat == 0x80010000#32) := by decide

/-- V-RG-17: the overflow sets bit 9 and records its fault, and the FIFO is unchanged. -/
theorem test_avoutbuffer_overflow :
    (match exec (.wrAvoutbuffer 20#32) { small with avOut := List.replicate 8 0 } with
      | .fault (.availableOverflow t) =>
        t.intrState == 0x200#32 && t.avOut.length == 8 && t.faults == [.availableOverflow]
      | _ => false) = true := by decide

/-- V-RG-18, V-RG-19. -/
theorem test_avsetupbuffer :
    verdict (exec (.wrAvsetupbuffer 7#32) { small with owner := small.owner.set 7 .hw }) = some .doubleHandoff ∧
    reaches (exec (.wrAvsetupbuffer 3#32) { small with avSetup := [0, 1, 2] })
      (fun t => t.avSetup == [0, 1, 2, 3] && t.usbstat == 0xC0400000#32) := by decide

/-- V-RG-20, V-RG-21. -/
theorem test_rxfifo :
    reaches (exec .rdRxfifo { small with rx := [⟨0, 8, true, 0⟩], owner := small.owner.set 0 .hw })
      (fun t => t.results == [0x80800#32] && t.rx == [] && t.ownerOf 0 == .sw) ∧
    reaches (exec .rdRxfifo { small with rx := [⟨31, 64, false, 11⟩] })
      (fun t => t.results == [0x00B0401F#32]) := by decide

/-- V-RG-26, V-RG-28. -/
theorem test_in_sent :
    reaches (exec .rdInSent completed) (fun t => t.results == [6#32] && t.ownerOf 3 == .sw && t.ownerOf 9 == .sw
      && t.inOwnOf 1 == none && t.inOwnOf 2 == none && t.inSent == 6#32) ∧
    reaches (exec (.wrInSent 2#32) completed) (fun t => t.inSent == 4#32) := by decide

/-- V-RG-31, V-RG-35, V-RG-37. -/
theorem test_configin :
    reaches (exec (.wrConfigin1 0x80000303#32) small)
      (fun t => t.configOf 1 == 0x80000303#32 && t.ownerOf 3 == .hw && t.inOwnOf 1 == some 3) ∧
    reaches (exec (.wrConfigin1 0x4104#32) small) (fun t => t.configOf 1 == 0x4104#32) ∧
    reaches (exec (.wrConfigin1 0x20000303#32) small) (fun t => t.configOf 1 == 0x303#32) := by decide

/-- V-RG-33, V-RG-34, V-RG-36. -/
theorem test_configin_stops :
    exec (.wrConfigin1 0x80004104#32) linked = .refused (.inTransferBusy linked.asRefused) ∧
    verdict (exec (.wrConfigin1 0x80004104#32) small) = some .argumentRange ∧
    verdict (exec (.wrConfigin1 0x404#32) completed) = some .uncollectedCompletion := ⟨rfl, by decide, by decide⟩

/-- V-RG-42, V-RG-43. -/
theorem test_phy_config :
    exec (.wrPhyConfig 2#32) small = .refused (.unknownFieldWrite small.asRefused) ∧
    reaches (exec (.wrPhyConfig 1#32) small) (fun t => t.phyConfig == 1#32) := ⟨rfl, by decide⟩

/-- V-RG-44 to V-RG-46. -/
theorem test_buffer_words :
    reaches (exec (.rdBuf 3 0) { linked with owner := small.owner }) (fun t => t.results == [0x00232211#32]) ∧
    verdict (exec (.rdBuf 3 0) linked) = some .ownershipViolation ∧
    verdict (exec (.wrBuf 3 0 0#32) linked) = some .ownershipViolation ∧
    reaches (exec (.wrBuf 3 0 0x00332211#32) small) (fun t => t.bufByte 3 2 == 0x33#8 && t.bufByte 3 3 == 0#8) := by
  decide

/-- V-RG-47, V-RG-48. -/
theorem test_dropped_writes :
    reaches (exec (.wrBufB 3 1 0xAA#32) linked) (fun t => t.bufByte 3 1 == 0x22#8) ∧
    reaches (exec (.wrBufH 3 1 0xBEEF#32) linked) (fun t => t.bufByte 3 2 == 0x23#8) := by decide

/-! ### Operations (2.3 to 2.7) -/

/-- V-BP-3: 34 transactions. -/
theorem test_supply_buffers :
    reaches (exec (.supplyBuffers 0xFFFFFFFF) small) (fun t => t.results == [0xFFFFF000#32]
      && t.avSetup == [0, 1, 2, 3] && t.avOut == [4, 5, 6, 7, 8, 9, 10, 11] && t.pc.t == 34) := by decide

/-- V-BP-5. -/
theorem test_supply_buffers_full :
    reaches (exec (.supplyBuffers 0x30) { small with avSetup := List.replicate 4 0, avOut := List.replicate 7 0 })
      (fun t => t.results == [0x20#32] && t.pc.t == 5 && t.avOut.getLast? == some 4) := by decide

/-- V-EC-3. -/
theorem test_configure_out_endpoint :
    reaches (exec (.configureOutEndpoint 11 1 0 1) { small with epOutEnable := 1#32, rxEnableSetup := 1#32, rxEnableOut := 1#32 })
      (fun t => t.results == [0#32] && t.epOutEnable == 0x801#32 && t.rxEnableSetup == 1#32
        && t.rxEnableOut == 0x801#32 && t.outIso == 0x800#32 && t.pc.t == 8) := by decide

/-- V-EC-2b, V-EC-5, V-EC-6. -/
theorem test_endpoint_operations :
    reaches (exec (.configureInEndpoint 255 1 0) small) (fun t => t.results == [0xFFFFFFFF#32] && t.pc.t == 0) ∧
    reaches (exec (.configureInEndpoint 1 1 0) small) (fun t => t.results == [0#32] && t.epInEnable == 2#32) ∧
    reaches (exec (.setEpStalling 2 1) small) (fun t => t.outStall == 4#32 && t.inStall == 4#32 && t.pc.t == 4) := by
  decide

/-- V-EC-7, V-EC-10, V-EC-12. -/
theorem test_set_device_address :
    reaches (exec (.setDeviceAddress 0x2A) { small with usbctrl := 1#32 }) (fun t => t.usbctrl == 0x002A0001#32) ∧
    reaches (exec (.setDeviceAddress 0x80) small) (fun t => t.results == [0xFFFFFFFF#32] && t.usbctrl == 0#32) ∧
    exec (.setEpStalling 256 1) small = .refused (.badOperand small.asRefused) := ⟨by decide, by decide, rfl⟩

/-- V-CT-1, V-CT-2, V-CT-4, V-CT-5. -/
theorem test_control :
    reaches (exec .init small) (fun t => t.results == [0#32] && t.phyConfig == 1#32) ∧
    reaches (exec .connect { small with usbctrl := 0x002A0000#32 }) (fun t => t.usbctrl == 0x002A0001#32) ∧
    reaches (exec .disconnect { small with usbctrl := 0x002A0001#32 }) (fun t => t.usbctrl == 0x002A0000#32) ∧
    reaches (exec .connected { small with usbctrl := 0x002A0001#32 }) (fun t => t.results == [1#32]) := by decide

/-- V-CT-8, V-CT-10. -/
theorem test_interrupt_operations :
    reaches (exec (.interruptEnable 0xFFFFFFFF) small) (fun t => t.intrEnable == 0x3FFFF#32) ∧
    reaches (exec (.interruptDisable 1) { small with intrState := 1#32, intrEnable := 1#32 })
      (fun t => t.intrEnable == 0#32 && t.intrState == 1#32 && !t.irq) := by decide

/-- V-TX-1, with the bytes 1, 2, 3. -/
theorem test_send_packet :
    reaches (exec (.sendPacket 3 1 0x20000000 3) (withBytes 3 small)) (fun t => t.results == [0#32]
      && t.configOf 1 == 0x80000303#32 && t.bufByte 3 0 == 1#8 && t.bufByte 3 2 == 3#8 && t.bufByte 3 3 == 0#8
      && t.ownerOf 3 == .hw && t.inOwnOf 1 == some 3 && t.pc.t == 4) := by decide

/-- V-TX-4 (buffer 31): the copy is done when the refusal comes; V-TX-6; V-TX-7. -/
theorem test_send_packet_stops :
    (match exec (.sendPacket 31 1 0x20000000 4) (withBytes 4 linked) with
      | .refused (.inTransferBusy t) => t.bufWord 31 0 == 0x04030201#32 && t.configOf 1 == 0x80000303#32 && t.refused
      | _ => false) = true ∧
    verdict (exec (.sendPacket 4 1 0 0) completed) = some .uncollectedCompletion ∧
    verdict (exec (.sendPacket 3 1 0x20000000 3) (withBytes 3 linked)) = some .ownershipViolation := by decide

/-- V-PC-1, its first call. -/
theorem test_packet_collected :
    reaches (exec .packetCollected completed) (fun t => t.results == [0#32, 1#32, 3#32] && t.inSent == 4#32
      && t.ownerOf 3 == .sw && t.ownerOf 9 == .sw && t.pc.t == 3) := by decide

/-- V-PC-4: a completion that `DEV` adds after the read stays for the next call. -/
theorem test_packet_collected_with_dev :
    reaches (exec .packetCollected { completed with
        inSent := 2#32, configIn := completed.configIn.set 3 0xA0000106#32, sched := [[], [.inComplete 3 false false]] })
      (fun t => t.results == [0#32, 1#32, 3#32] && t.inSent == 8#32) := by decide

/-- V-RX-5: five bytes, in 2 + 2 transactions. -/
theorem test_recv_packet :
    reaches (exec (.recvPacket 0x20000100) (received 5 false 1)) (fun t => t.results == [0#32, 1#32, 5#32, 5#32, 0#32]
      && t.mem == [(0x20000100, 1#8), (0x20000101, 2#8), (0x20000102, 3#8), (0x20000103, 4#8), (0x20000104, 5#8)]
      && t.rx == [] && t.ownerOf 5 == .sw && t.pc.t == 4) := by decide

/-- V-RX-2, at reset, whatever Sense is: the host's evaluation of this row stops at that draw (NOTES.md). -/
theorem test_recv_packet_at_reset : ∀ sense : Bool,
    reaches (exec (.recvPacket 0) { State.reset with sense := sense })
      (fun t => t.results == [0xFFFFFFFF#32] && t.pc.t == 1) := by decide

/-- V-WT-6. -/
theorem test_transfer_to_device :
    reaches (exec (.transferToDevice 0 0x20000000 5) (withBytes 8 small)) (fun t => t.bufWord 0 0 == 0x04030201#32
      && t.bufWord 0 1 == 5#32 && t.pc.t == 2) := by decide

/-- V-WT-10, then V-WT-13 and V-WT-14 of the other direction. -/
theorem test_transfer_from_device :
    reaches (exec (.transferFromDevice 5 0x20000200 2) (received 2 false 0 |> fun s => { s with owner := small.owner }))
      (fun t => t.mem == [(0x20000200, 1#8), (0x20000201, 2#8)] && t.pc.t == 1) ∧
    verdict (exec (.transferToDevice 0 0x20000001 4) small) = some .misalignedMemory ∧
    reaches (exec (.transferToDevice 0 0x20000001 0) small) (fun t => t.pc.t == 0) := by decide

/-! ### The link engine (2.8) -/

/-- A received image: its first bytes are the packet. -/
def image : Vector Byte 64 := Vector.ofFn fun j => BitVec.ofNat 8 (0x80 + j.val)

/-- V-LE-1, V-LE-2. -/
theorem test_link_rx_setup :
    taken (devStep (.rxSetup 0 8 image false false false) linked) (fun t => t.avSetup == [1, 2]
      && t.bufByte 0 7 == 0x87#8 && t.rx == [⟨0, 8, true, 0⟩] && t.intrState == 1#32) ∧
    devStep (.rxSetup 1 8 image false false false) linked = none := by decide

/-- V-LE-11: the cancel. -/
theorem test_link_setup_cancel :
    taken (devStep (.rxSetup 1 0 image true false false) { linked with epOutEnable := 3#32, rxEnableSetup := 3#32 })
      (fun t => t.configOf 1 == 0x40000303#32 && t.inOwnOf 1 == some 3 && t.ownerOf 3 == .hw) := by decide

/-- V-LE-3, V-LE-4, V-LE-5. -/
theorem test_link_rx_out :
    taken (devStep (.rxOut 0 2 image true) linked) (fun t => t.avOut == [5] && t.rx == [⟨4, 2, false, 0⟩]
      && t.intrState == 1#32 && t.outToggle == 1#32) ∧
    taken (devStep (.rxOut 0 2 image false) { linked with avOut := [4] }) (fun t => t.intrState == 0x81#32) ∧
    devStep (.rxOut 0 2 image false) { linked with outStall := 1#32 } = none := by decide

/-- V-LE-7, V-LE-10. -/
theorem test_link_in :
    taken (devStep (.inStart 1 false) linked) (fun t => t.configOf 1 == 0xA0000303#32) ∧
    taken (devStep (.inComplete 1 false true) sending) (fun t => t.configOf 1 == 0x303#32 && t.inSent == 2#32
      && t.intrState == 2#32 && t.txLog == [⟨1, [0x11#8, 0x22#8, 0x23#8], true⟩] && t.inToggle == 2#32) ∧
    devStep (.inStart 1 false) { linked with usbctrl := 0#32 } = none := by decide

/-- V-LE-8, V-LE-9. -/
theorem test_link_in_fail :
    taken (devStep (.inFail 1 true false) sending) (fun t => t.configOf 1 == 0x80000303#32 && t.intrState == 0x400#32
      && t.txLog.map TxEntry.acked == [false] && t.inOwnOf 1 == some 3) ∧
    devStep (.inFail 1 true false) { sending with inIso := 2#32 } = none := by decide

/-- V-LE-13 to V-LE-16. -/
theorem test_link_events :
    taken (devStep (.sof 0x123) linked) (fun t => t.frame == 0x123#11 && t.intrState == 0x4000#32) ∧
    taken (devStep (.event .powered 3) small) (fun t => t.intrState == 0x8000#32 && t.sense && t.linkState == 3#3) ∧
    devStep (.level .packetReceived) linked = none ∧
    devStep (.level .availableOutEmpty) { small with faults := [.argumentRange] } = none := by decide

/-! ### Steps -/

/-- The first command of a list runs at the first step, and a bare table word is one. -/
theorem test_step_runs_first_command :
    reaches (step (State.reset.withFetchWord 32 0x81000000)) (fun t => t.results == [0#32] && t.pc == ⟨1, 0⟩) ∧
    reaches (step { small with prog := [⟨0x84000000#32, 0#32, { x0 := 5 }⟩] })
      (fun t => t.usbctrl == 0x00050000#32 && t.pc == ⟨1, 0⟩) := by decide

/-- V-EX-6 and R396: no step after a verdict, and none past the end of the list. -/
theorem test_no_further_step :
    step { small with refused := true } = .fault (.halted { small with refused := true }) ∧
    step small = .fault (.runEnded small) ∧ small.GoodEnd := ⟨rfl, rfl, by decide⟩

/-! ### Witnesses: for each obligation with hypotheses, states and operands that meet them, clause by clause -/

/-- `linked` without CONFIGIN1's packet, buffers 3 and 6 and up software's. -/
def open12 : State := { linked with
  configIn := small.configIn, inOwn := small.inOwn, owner := linked.owner.set 3 .sw }

/-- A SETUP on endpoint 0 is due at the interleaving point after `n` quiet ones. -/
def busy (n : Nat) : List (List DevStep) := List.replicate n [] ++ [[.rxSetup 0 8 image true true true]]

/-- The layouts of the witnesses: the default one and `moved`. -/
theorem layouts : Params.default.LayoutOk ∧ moved.LayoutOk := by decide

/-- At `moved`, an unmapped row whose offset is unmapped there, and one whose offset holds a register. -/
theorem witness_DecodeEncode :
    moved.LayoutOk ∧ (Instr.rdUnmapped200 127).Placed moved ∧ ¬(Instr.rdUnmapped100 0).Placed moved ∧
    (Instr.rdBuf 31 15).Placed moved := by decide

theorem witness_DecodeReadsWholeDescriptor : Params.default.LayoutOk ∧ decode .default ⟨0x4FFC#32, 0#32, {}⟩ = .ok (.rdBuf 31 15) := by decide

/-- One descriptor for each clause, at the edges of its range; and at `moved` the last register and the last buffer word,
an unmapped offset with a row, and two without: below the registers and past the window. -/
theorem witness_TransactionDescriptorChecks :
    Params.default.LayoutOk ∧ Params.default.bufBase = 0x800 ∧ moved.LayoutOk ∧
    moved.InRegisters 0x18C ∧ moved.InBuffers 0xBFC ∧ (¬moved.InRegisters 0x3FC ∧ ¬moved.InBuffers 0x3FC) ∧
    (¬moved.InRegisters 0x08C ∧ ¬moved.InBuffers 0x08C ∧ ¬(0x090 ≤ 0x08C ∧ 0x08C < 0x800)) ∧
    (¬moved.InRegisters 0xC00 ∧ ¬moved.InBuffers 0xC00 ∧ ¬(0x090 ≤ 0xC00 ∧ 0xC00 < 0x800)) ∧
    (0x8000#32).getLsbD 31 = false ∧ (0x8000#32).extractLsb' 15 17 ≠ 0#17 ∧
    (0x7FFF#32).extractLsb' 15 17 = 0#17 ∧ ((0x7FFF#32).extractLsb' 13 2).toNat = 3 ∧
    ((0x4FFF#32).extractLsb' 13 2).toNat = 2 ∧ ((0x4FFF#32).extractLsb' 0 12).toNat % 4 ≠ 0 ∧
    ((0x17FF#32).extractLsb' 13 2).toNat < 2 ∧ (0x17FF#32).getLsbD 12 = true ∧
    ¬ 0x800 ≤ ((0x17FF#32).extractLsb' 0 12).toNat ∧
    ((0x3FFF#32).extractLsb' 13 2).toNat = 1 ∧ (0x3FFF#32).getLsbD 12 = true ∧
    0x800 ≤ ((0x3FFF#32).extractLsb' 0 12).toNat ∧ ((0x3FFF#32).extractLsb' 0 12).toNat % 2 ≠ 0 ∧
    ((0x4FFC#32).extractLsb' 13 2).toNat = 2 ∧ ((0x4FFC#32).extractLsb' 0 12).toNat % 4 = 0 ∧
    ((0x3800#32).extractLsb' 0 12).toNat = 0x800 ∧ ((0x1800#32).extractLsb' 13 2).toNat = 0 := by decide

theorem witness_OperationDescriptors :
    (0x90000000#32).getLsbD 31 = true ∧ (0x90000000#32).extractLsb' 28 3 ≠ 0#3 ∧
    (0x80000001#32).getLsbD 31 = true ∧ (0x80000001#32).extractLsb' 0 24 ≠ 0#24 := by decide

theorem witness_FieldAssembly : 31 < 32 ∧ 127 < 128 ∧ (usbctrlAddr 0xFFFFFFFF#32 127).toNat = 0xFFFFFFFF := by decide

theorem witness_InterruptRegisterReads : Params.default.LayoutOk ∧ moved.LayoutOk := layouts

theorem witness_EndpointBitmapReads : Params.default.LayoutOk ∧ moved.LayoutOk := layouts

theorem witness_EndpointBitmapWrites : Params.default.LayoutOk ∧ moved.LayoutOk := layouts

theorem witness_InSentWrite : Params.default.LayoutOk ∧ moved.LayoutOk := layouts

theorem witness_ConfigInReads : Params.default.LayoutOk ∧ moved.LayoutOk := layouts

theorem witness_AlwaysRefusedTransactions : Params.default.LayoutOk ∧ moved.LayoutOk := layouts

theorem witness_SubWordWritesDropped : Params.default.LayoutOk ∧ moved.LayoutOk := layouts

theorem witness_InterruptRegisterWrites :
    ∃ t, exec (.wrIntrEnable 1#32) { small with intrState := 1#32 } = .next t ∧ t.irq = true := ⟨_, rfl, by decide⟩

theorem witness_UsbctrlAccess : (2#32).getLsbD 1 = true ∧ (0xFFFFFFFD#32).getLsbD 1 = false := by decide

/-- With empty queues, and with every queue at its capacity. -/
theorem witness_StatusRead :
    small.params.Ok ∧ small.QueuesInRange ∧
    ({ small with avSetup := [0, 1, 2, 3], avOut := [4, 5, 6, 7, 8, 9, 10, 11],
                  rx := List.replicate 8 ⟨12, 64, false, 11⟩ } : State).QueuesInRange := by decide

/-- A hardware-owned id; a software-owned one with the FIFO full; one with room for exactly it. -/
theorem witness_AvailabilityPortWrites :
    ((0xFFFFFFE4#32).extractLsb' 0 5).toNat = (4 : BufId).val ∧ linked.ownerOf 4 = .hw ∧ small.ownerOf 4 = .sw ∧
    (List.replicate 8 (0 : BufId)).length = small.params.avOutCap ∧
    (List.replicate 7 (0 : BufId)).length ≠ small.params.avOutCap ∧
    (List.replicate 4 (0 : BufId)).length = small.params.avSetupCap ∧
    (List.replicate 3 (0 : BufId)).length ≠ small.params.avSetupCap := by decide

theorem witness_ReceiveFifoRead : small.rx = [] ∧ (received 64 true 11).rx = [⟨5, 64, true, 11⟩] := by decide

theorem witness_InSentRead :
    completed.inSent.getLsbD 1 = true ∧ completed.inOwnOf 1 = some 3 ∧ completed.inSent.getLsbD 3 = false := by decide

/-- For every endpoint: busy (Ready, Sending); uncollected; Size 65 and Size 64; an owned and a free buffer. -/
theorem witness_ConfigInWrites :
    (∀ e : EpId, (small.setConfig e 0x80000000#32).configIn[e].getLsbD 31 = true ∧
      (small.setConfig e 0x20000000#32).configIn[e].getLsbD 29 = true ∧
      small.configIn[e].getLsbD 31 = false ∧ small.configIn[e].getLsbD 29 = false ∧
      small.inOwnOf e = none ∧ (small.setInOwn e (some 3)).inOwnOf e ≠ none) ∧
    ((0xC0004103#32).extractLsb' 8 7).toNat = 65 ∧ ((0xC0004003#32).extractLsb' 8 7).toNat = 64 ∧
    ((0xC0004003#32).extractLsb' 0 5).toNat = (3 : BufId).val ∧ linked.ownerOf 3 = .hw ∧ small.ownerOf 3 = .sw ∧
    (0xC0004003#32).getLsbD 31 = true ∧ (0xC0004003#32).getLsbD 30 = true ∧ (0x80004003#32).getLsbD 30 = false := by
  decide

theorem witness_UnknownFieldRegisters :
    small.ReservedZero ∧ 0x800#32 &&& 0xFFF#32 ≠ 0#32 ∧ 0x1000#32 &&& 0xFFF#32 = 0#32 ∧ 1#32 ≠ 0#32 := by decide

theorem witness_PhyRegisters :
    (0x80000000#32).extractLsb' 1 31 ≠ 0#31 ∧ (2#32).extractLsb' 1 31 ≠ 0#31 ∧ (1#32).extractLsb' 1 31 = 0#31 := by
  decide

/-- The edges of the range at the default layout, and a write at the last word before the buffers of `moved`. -/
theorem witness_UnmappedOffsetsRefused :
    (0x090 ≤ 0x090 ∧ 0x090 < 0x800 ∧ 0x090 % 4 = 0) ∧ (0x090 ≤ 0x7FC ∧ 0x7FC < 0x800 ∧ 0x7FC % 4 = 0) ∧
    (let s : State := { small with params := moved, prog := [⟨BitVec.ofNat 32 (0x5000 + 0x3FC), 1#32, {}⟩] }
     s.SwTurn ∧ s.prog[s.pc.op]? = some ⟨BitVec.ofNat 32 (0x5000 + 0x3FC), 1#32, {}⟩ ∧ s.params.LayoutOk ∧
     s.params.regBase + 0x90 ≤ 0x3FC ∧ 0x3FC < s.params.bufBase ∧ 0x3FC % 4 = 0) := by decide

theorem witness_BufferWordRead : linked.ownerOf 0 = .hw ∧ linked.ownerOf 31 = .sw := by decide

theorem witness_BufferWordWrite :
    linked.ownerOf 5 = .hw ∧ linked.ownerOf 6 = .sw ∧ (63 : ByteIx).val / 4 = (15 : WordIx).val := by decide

/-- Endpoints 12 and 255, for R220 and R221. -/
theorem witness_ConfigureOutEndpoint : 12 ≤ 12 ∧ 12 < 256 ∧ 12 ≤ 255 ∧ 255 < 256 := by decide

theorem witness_ConfigureInEndpoint : 12 ≤ 12 ∧ 12 < 256 ∧ 12 ≤ 255 ∧ 255 < 256 := by decide

/-- The lost stall clear: the SETUP on endpoint 0 is taken and clears its stall, and the write restores it. -/
theorem witness_SetEpStalling :
    ∃ t, exec (.setEpStalling (2 : EpId).val true.toNat) { linked with outStall := 1#32, sched := busy 1 } = .next t ∧
      t.outStall = 5#32 ∧ t.rx.length = 1 ∧ (0 : EpId) ≠ 2 ∧
      busy 1 = [[], [.rxSetup 0 8 image true true true]] ∧ busy 3 = [[], [], [], [.rxSetup 0 8 image true true true]] ∧
      ({ linked with params := { linked.params with setupClearsStall := false } } : State).params.setupClearsStall
        = false := ⟨_, rfl, by decide⟩

theorem witness_SetDeviceAddress : (128 ≤ 128 ∧ 128 < 256) ∧ (128 ≤ 255 ∧ 255 < 256) ∧ 127 < 128 := by decide

/-- Bit 17 is pending and a SETUP arrives between the two transactions. -/
theorem witness_InterruptEnableDisable : 0xFFFFFFFF < 4294967296 ∧
    let s : State := { linked with intrState := 0x20000#32, sched := busy 1 }
    s.intrState.getLsbD 17 = true ∧ reaches (exec (.interruptEnable 0xFFFFFFFF) s) (fun t => t.intrState == 0x20001#32) ∧
    reaches (exec (.interruptDisable 0) s) (fun t => t.intrState == 0x20001#32) := by decide

theorem witness_BadOperands : (Instr.setEpStalling 0 2).wellFormed = false := by decide

/-- All 26 free ids of `linked` are offered. -/
theorem witness_SupplyBuffersQuiet :
    0xFFFFFFC0 < 4294967296 ∧ linked.Quiet ∧ linked.params.Ok ∧ linked.QueuesInRange ∧
    ∀ b : BufId, (0xFFFFFFC0).testBit b.val = true → linked.ownerOf b = .sw := by decide

theorem witness_SupplyBuffersAssignsOnlyFree :
    let s : State := { linked with sched := busy 1 }
    0xFFFFFFC0 < 4294967296 ∧ s.params.Ok ∧ s.QueuesInRange ∧
    ∀ b : BufId, (0xFFFFFFC0).testBit b.val = true → s.ownerOf b = .sw := by decide

/-- A whole buffer at the very end of the caller's memory, with a SETUP on the way. -/
theorem witness_TransferToDevice :
    let s : State := { linked with sched := busy 3 }
    64 ≤ 64 ∧ 0xFFFFFFC0 < 4294967296 ∧ 0xFFFFFFC0 % 4 = 0 ∧ s.HasBytes 0xFFFFFFC0 64 ∧ s.Owned ∧
    s.ownerOf 31 = .sw := by decide

theorem witness_TransferFromDevice :
    let s : State := { withBytes 3 linked with sched := busy 3 }
    63 ≤ 64 ∧ 0x20000000 < 4294967296 ∧ 0x20000000 % 4 = 0 ∧ s.HasBytes 0x20000000 63 ∧ s.Owned ∧
    s.ownerOf 31 = .sw ∧ Memory.wf s.mem = true := by decide

/-- `small` with only so many bytes of the caller's memory, from address 0 on. -/
def bounded (size : Nat) : State := { small with params := { small.params with callerMem := [⟨0, size⟩] } }

/-- The first byte that a copy from address 0 finds outside the caller's memory is byte m. -/
def firstOutside (m : Nat) : Prop :=
  (bounded m).Quiet ∧ (bounded m).ownerOf (.ofNat 32 31) = .sw ∧ (bounded m).HasBytes 0 m ∧
  inMemory (bounded m).params (0 + m) = false ∧ Memory.wf (bounded m).mem = true

/-- Each stop: buffer 32, size 65; address 1; a hardware-owned buffer, with the first word in memory and not; and, of 63
bytes, the first outside memory at the start, inside a later word, at its edge, and in the tail; and of 3 bytes. -/
theorem witness_TransferStops :
    32 ≤ 32 ∧ 32 < 256 ∧ 64 < 65 ∧ 65 < 256 ∧ (31 < 32 ∧ 64 ≤ 64 ∧ 0 < 64 ∧ 0xFFFFFFFF % 4 ≠ 0) ∧
    linked.Quiet ∧ linked.ownerOf (.ofNat 32 5) = .hw ∧ linked.HasBytes 0 (min 3 4) ∧
    (let s : State := { linked with params := (bounded 2).params }
     s.Quiet ∧ s.ownerOf (.ofNat 32 5) = .hw ∧ ¬s.HasBytes 0 (min 3 4)) ∧
    (firstOutside 0 ∧ firstOutside 58 ∧ firstOutside 60 ∧ firstOutside 62 ∧ 62 < 63) ∧ (firstOutside 2 ∧ 2 < 3) := by
  simp only [firstOutside]; decide

theorem witness_CopyRoundTrip :
    let s := withBytes 3 linked
    (63 ≤ 64 ∧ s.HasBytes 0x20000000 63 ∧ s.HasBytes 0x20000100 63) ∧ 0x20000100 % 4 = 0 ∧ s.Owned ∧
    s.ownerOf 31 = .sw ∧ Memory.wf s.mem = true := by decide

/-- With Pending 0 and with Pending 1, a SETUP on the way. -/
theorem witness_SendPacket :
    let s : State := { open12 with sched := busy 2, configIn := open12.configIn.set 1 0x40000000#32 }
    64 ≤ 64 ∧ s.HasBytes 0x20000000 64 ∧ s.Owned ∧ s.ownerOf 3 = .sw ∧ (∀ ep : EpId, readyBit (s.configOf ep) = false ∧
      sendingBit (s.configOf ep) = false ∧ s.inOwnOf ep = none) ∧
    pendingBit (s.configOf 0) = false ∧ pendingBit (s.configOf 1) = true := by decide

/-- Each stop, with 64 bytes of data and with none: `linked` has endpoint 1 busy and endpoint 0 free, `completed` has
endpoint 1 uncollected. -/
theorem witness_SendPacketStops :
    (32 ≤ 32 ∧ 12 ≤ 12 ∧ 64 < 65) ∧ 0x20000001 % 4 ≠ 0 ∧ 0x20000000 % 4 = 0 ∧ linked.Quiet ∧ completed.Quiet ∧
    linked.HasBytes 0x20000000 64 ∧ completed.HasBytes 0x20000000 64 ∧ linked.ownerOf 31 = .sw ∧
    completed.ownerOf 31 = .sw ∧ linked.ownerOf 5 = .hw ∧
    readyBit (linked.configOf 1) = true ∧ sendingBit (sending.configOf 1) = true ∧
    readyBit (completed.configOf 1) = false ∧ sendingBit (completed.configOf 1) = false ∧
    completed.inOwnOf 1 ≠ none ∧
    readyBit (linked.configOf 0) = false ∧ sendingBit (linked.configOf 0) = false ∧ linked.inOwnOf 0 = none ∧
    ∃ f, exec (.transferToDevice (31 : BufId).val 0 64) (bounded 62) = .fault f := by
  refine ⟨?_, ?_, ?_, ?_, ?_, ?_, ?_, ?_, ?_, ?_, ?_, ?_, ?_, ?_, ?_, ?_, ?_, ?_, _, rfl⟩ <;> decide

/-- No completion; the lowest endpoint with one; and one that appears only at the interleaving point. -/
theorem witness_PacketCollected :
    small.Quiet ∧ small.inSent &&& 0xFFF#32 = 0#32 ∧ completed.Quiet ∧ epBit completed.inSent 1 = true ∧
    (∀ e' < (1 : EpId), epBit completed.inSent e' = false) ∧
    (let s : State := { sending with sched := [[.inComplete 1 false false]] }
     epBit s.inSent 1 = false ∧ epBit (devPoint s).inSent 1 = true) := by decide

/-- An empty RX; a packet of 64 bytes; a packet without data at an odd address. -/
theorem witness_RecvPacketQuiet :
    small.rx = [] ∧ (received 64 true 11).Quiet ∧ (received 64 true 11).params.Ok ∧
    (received 64 true 11).QueuesInRange ∧ Memory.wf (received 64 true 11).mem = true ∧
    (received 64 true 11).rx = [⟨5, 64, true, 11⟩] ∧ 0xFFFFFFC0 % 4 = 0 ∧
    (received 64 true 11).HasBytes 0xFFFFFFC0 64 ∧ (received 0 false 0).HasBytes 1 0 := by decide

/-- The machine's invariant in the middle of a run, with a SETUP due. -/
theorem linked_inv : ({ linked with sched := busy 0 } : State).Inv :=
  ⟨by decide, by decide, by decide, by decide, by decide, by decide, by decide⟩

/-- RX is empty at the call, and a packet is at its head at the first read. -/
theorem witness_RecvPacketCompletes :
    let s : State := { linked with sched := busy 0 }
    s.Inv ∧ 0x20000000 % 4 = 0 ∧ s.HasBytes 0x20000000 64 ∧ s.rx = [] ∧ (devPoint s).rx = [⟨0, 8, true, 0⟩] ∧
    (devPoint linked).rx = [] := ⟨linked_inv, by decide⟩

/-- An entry of 65 bytes, one of endpoint 12, an ordinary one at address 2, and one whose copy leaves memory. -/
theorem witness_RecvPacketStops :
    (∃ f, exec (.transferFromDevice (5 : BufId).val 0 64)
      ({ received 64 false 0 with rx := [], owner := small.owner, params := (bounded 62).params } : State) = .fault f) ∧
    (received 65 false 0).Quiet ∧ (received 65 false 0).rx = [⟨5, 65, false, 0⟩] ∧ 64 < (65#7).toNat ∧
    12 ≤ (12#4).toNat ∧ (received 1 false 11).rx = [⟨5, 1, false, 11⟩] ∧ (11#4).toNat < 12 ∧ 2 % 4 ≠ 0 ∧
    (received 1 false 11).avOut.length < 16 ∧ (received 1 false 11).avSetup.length < 8 ∧
    (received 1 false 11).rx.length < 16 := ⟨⟨_, rfl⟩, by decide⟩

theorem witness_LinkRxSetup : linked.isHalted = false ∧ linked.avSetup = 0 :: [1, 2] ∧
    (devStep (.rxSetup 0 64 image true true true) linked).isSome = true := by decide

theorem witness_LinkRxOut : linked.isHalted = false ∧ linked.avOut = 4 :: [5] ∧
    (devStep (.rxOut 0 64 image true) linked).isSome = true := by decide

theorem witness_LinkInTransmission :
    linked.isHalted = false ∧ linked.usbctrl.getLsbD 0 = true ∧ epBit linked.epInEnable 1 = true ∧
    epBit linked.inStall 1 = false ∧ readyBit (linked.configOf 1) = true ∧ sendingBit (linked.configOf 1) = false ∧
    sending.isHalted = false ∧ sendingBit (sending.configOf 1) = true ∧ epBit sending.inIso 1 = false ∧
    epBit ({ sending with inIso := 0xFFF#32 } : State).inIso 1 = true := by decide

theorem witness_LinkBusEvents :
    linked.isHalted = false ∧ linked.usbctrl.getLsbD 0 = true ∧ small.usbctrl.getLsbD 0 = false ∧
    small.avOut.length = 0 ∧ linked.avOut.length ≠ 0 ∧ EventKind.hostLost ≠ .disconnected := by decide

theorem witness_LinkGating :
    let off : State := { sending with usbctrl := 0#32 }
    off.usbctrl.getLsbD 0 = false ∧ off.isHalted = false ∧ sendingBit (off.configOf 1) = true ∧
    epBit off.inIso 1 = false ∧ LevelSource.receiveFull.active { off with params := { off.params with rxCap := 0 } } = true ∧
    ({ small with faults := [.argumentRange] } : State).faults ≠ [] ∧
    ({ small with refused := true } : State).refused = true := by decide

theorem witness_LinkWritesOnlyItsList :
    ∃ t, devStep (.rxOut 0 64 image true) linked = some t ∧ t.bufMem[(4 : BufId)] ≠ linked.bufMem[(4 : BufId)] :=
  ⟨_, rfl, by decide⟩

/-- `SW` steps next with an empty schedule and with an empty group at its head. -/
theorem witness_StepRunsDecoded :
    let s : State := { small with prog := [⟨0x85000000#32, 0#32, {}⟩], sched := busy 1 }
    s.SwTurn ∧ small.SwTurn ∧ s.prog[s.pc.op]? = some ⟨0x85000000#32, 0#32, {}⟩ ∧
    decode .default ⟨0x85000000#32, 0#32, {}⟩ = .ok .connect := by decide

theorem witness_StepOtherwise :
    small.SwTurn ∧ decode .default ⟨0x6000#32, 0#32, {}⟩ = .error .illegalDescriptor ∧
    decode .default ⟨0x4002#32, 0#32, {}⟩ = .error .misalignedDeviceAccess ∧
    decode .default ⟨0x0800#32, 0#32, {}⟩ = .error .subWordAccess ∧
    decode moved ⟨0x4010#32, 0#32, {}⟩ = .error .unmappedOffset ∧ small.isHalted = false ∧
    busy 0 = [.rxSetup 0 8 image true true true] :: [] ∧ small.prog.length ≤ small.pc.op := by decide

theorem witness_VerdictsRecorded :
    (∃ f, step { linked with prog := [⟨0x48C0#32, 0#32, {}⟩] } = .fault f ∧ f.reason = some .ownershipViolation) ∧
    ∃ r, step { linked with prog := [⟨0x6000#32, 0#32, {}⟩] } = .refused r := ⟨⟨_, rfl, rfl⟩, _, rfl⟩

theorem witness_NextStateRuns : ∃ t, step { linked with sched := busy 0 } = .next t ∧ t.rx.length = 1 :=
  ⟨_, rfl, by decide⟩

theorem witness_StepKeepsInv : ∃ t, ({ linked with sched := busy 0 } : State).Inv ∧
    step { linked with sched := busy 0 } = .next t ∧ t.rx.length = 1 := ⟨_, linked_inv, rfl, by decide⟩

/-- A `SW` step that moves ownership, from a state outside the rest of the invariant. -/
theorem witness_StepKeepsOwnership :
    let s : State := { completed with usbctrl := 0xFFFFFFFF#32, prog := [⟨0x8A000000#32, 0#32, {}⟩] }
    s.Owned ∧ ∃ t, step s = .next t ∧ t.ownerOf 9 = .sw := ⟨by decide, _, rfl, by decide⟩

theorem witness_SoftwareLeavesHardwareBuffers :
    linked.Quiet ∧ linked.ownerOf 3 = .hw ∧ ∃ t, exec (.wrBuf 31 15 0xFFFFFFFF#32) linked = .next t :=
  ⟨rfl, by decide, _, rfl⟩

end Sys2Proof.Machine.Tests
end

/-! SUPPORT. The round trip of decoder and encoder (R110 to R117). An instruction's descriptor is a word access to an
offset, a sub-word write to one, or an operation code. Each format has one equation for what the decoder answers and
one for the descriptor the encoder writes. -/

namespace Sys2Proof.Machine

/-- The descriptor of a word access (R111): `SZ` is 2, bit 12 says whether it is a write. -/
abbrev wordDescriptor (write : Bool) (off : Nat) : Word := BitVec.ofNat 32 ((if write then 0x5000 else 0x4000) + off)

/-- The descriptor of a sub-word write (R111): `SZ` is 1 for a halfword and 0 for a byte. -/
abbrev subWordDescriptor (half : Bool) (off : Nat) : Word := BitVec.ofNat 32 ((if half then 0x3000 else 0x1000) + off)

/-! ### The bounds of a legal layout (R8) -/

theorem register_offset_lt {p : Params} (hp : p.LayoutOk) {k : Nat} (hk : k < 36) : p.regBase + 4 * k < 4096 := by
  obtain ⟨-, -, hend, hw, hpage⟩ := hp
  simp only [Config.regBytes, Config.bufMemBytes, Config.pageBytes] at hend hw hpage
  omega

theorem buffer_offset_lt {p : Params} (hp : p.LayoutOk) {off : Nat} (h : p.InBuffers off) : off < 4096 := by
  obtain ⟨-, -, -, hw, hpage⟩ := hp
  simp only [Params.InBuffers, Config.bufMemBytes, Config.pageBytes] at h hw hpage
  omega

theorem bufOff_inBuffers (p : Params) (b : BufId) (k : WordIx) : p.InBuffers (bufOff p b k) := by
  simp only [Params.InBuffers, Config.bufMemBytes, bufOff]
  omega

theorem bufOff_aligned {p : Params} (hp : p.LayoutOk) (b : BufId) (k : WordIx) : bufOff p b k % 4 = 0 := by
  have h64 : p.bufBase % 64 = 0 := hp.2.1
  simp only [bufOff]
  omega

/-- The aligned offsets of packet buffer memory are those of its words. -/
theorem exists_bufOff {p : Params} (hp : p.LayoutOk) {off : Nat} (h : p.InBuffers off) (h4 : off % 4 = 0) :
    ∃ b k, off = bufOff p b k := by
  have h64 : p.bufBase % 64 = 0 := hp.2.1
  simp only [Params.InBuffers, Config.bufMemBytes] at h
  refine ⟨⟨(off - p.bufBase) / 64, by omega⟩, ⟨(off - p.bufBase) % 64 / 4, by omega⟩, ?_⟩
  simp only [bufOff]
  omega

/-- The aligned offsets of the register block are those of its registers. -/
theorem exists_register_offset {p : Params} (hp : p.LayoutOk) {off : Nat} (h : p.InRegisters off) (h4 : off % 4 = 0) :
    ∃ k < 36, off = p.regBase + 4 * k := by
  have hbase : p.regBase % 4 = 0 := hp.1
  simp only [Params.InRegisters, Config.regBytes] at h
  exact ⟨(off - p.regBase) / 4, by omega, by omega⟩

/-! ### The registers (R113) -/

theorem registerAccess_eq_none {write : Bool} {k : Nat} (hk : 36 ≤ k) (v : Word) : registerAccess write k v = none := by
  cases write <;> simp [registerAccess, registerReads, registerWrites, hk]

theorem registerAccess_read {k : Nat} (hk : k < 36) (v : Word) : registerAccess false k v = some registerReads[k] :=
  List.getElem?_eq_getElem hk

theorem registerAccess_write {k : Nat} (hk : k < 36) (v : Word) :
    registerAccess true k v = some (registerWrites[k] v) :=
  congrArg (Option.map fun i : Word → Instr => i v) (List.getElem?_eq_getElem (l := registerWrites) hk)

theorem exists_registerAccess (write : Bool) {k : Nat} (hk : k < 36) (v : Word) :
    ∃ i, registerAccess write k v = some i := by
  cases write
  · exact ⟨_, registerAccess_read hk v⟩
  · exact ⟨_, registerAccess_write hk v⟩

/-- The accesses to the registers, with `v` the data word of the writes. -/
def registerAccesses (v : Word) : List Instr := registerReads ++ registerWrites.map (· v)

theorem exists_registerAccess_of_mem {v : Word} {i : Instr} (h : i ∈ registerAccesses v) :
    ∃ write k, registerAccess write k v = some i := by
  rcases List.mem_append.mp h with hread | hwrite
  · exact ⟨false, List.mem_iff_getElem?.mp hread⟩
  · obtain ⟨k, hk⟩ := List.mem_iff_getElem?.mp hwrite
    exact ⟨true, k, List.getElem?_map.symm.trans hk⟩

theorem encode_registerReads_desc (p : Params) (k : Nat) (hk : k < 36) :
    (encode p registerReads[k]).desc = wordDescriptor false (p.regBase + 4 * k) := by
  interval_cases k <;> rfl

theorem encode_registerWrites_desc (p : Params) (k : Nat) (hk : k < 36) (v : Word) :
    (encode p (registerWrites[k] v)).desc = wordDescriptor true (p.regBase + 4 * k) := by
  interval_cases k <;> rfl

theorem encode_registerAccess_desc (p : Params) {write : Bool} {k : Nat} {v : Word} {i : Instr}
    (h : registerAccess write k v = some i) :
    k < 36 ∧ (encode p i).desc = wordDescriptor write (p.regBase + 4 * k) := by
  have hk : k < 36 := by
    by_contra hk
    rw [registerAccess_eq_none (by omega)] at h
    cases h
  refine ⟨hk, ?_⟩
  cases write
  · cases (registerAccess_read hk v).symm.trans h
    exact encode_registerReads_desc p k hk
  · cases (registerAccess_write hk v).symm.trans h
    exact encode_registerWrites_desc p k hk v

/-! ### The unmapped rows (R195) -/

/-- The word that an unmapped row's offset names, counted from the row's first offset. -/
theorem ofNat_word_of_offset (base : Nat) {n : Nat} [NeZero n] (k : Fin n) :
    Fin.ofNat n ((base + 4 * k.val - base) / 4) = k := by
  rw [Nat.add_sub_cancel_left, Nat.mul_div_cancel_left _ (by decide), Fin.ofNat_val_eq_self]

/-- The offset of an unmapped row lies in the range the table has rows for. -/
theorem unmappedOffset_range {i : Instr} {off : Nat} (h : off ∈ i.unmappedOffset) :
    0x090 ≤ off ∧ off < 0x800 ∧ off % 4 = 0 := by
  unfold Instr.unmappedOffset at h
  split at h <;> cases h <;> omega

/-- An unmapped row is the access to its offset, and its descriptor names that offset. -/
theorem unmappedAccess_row (p : Params) {i : Instr} {off : Nat} (h : off ∈ i.unmappedOffset) :
    ∃ write, (encode p i).desc = wordDescriptor write off ∧ unmappedAccess write off (encode p i).data = .ok i := by
  obtain ⟨hlo, hhi, -⟩ := unmappedOffset_range h
  simp only [unmappedAccess, hlo, hhi, and_self, if_true, Except.ok.injEq]
  cases i <;> cases h
  case rdUnmapped090 | rdUnmapped0A0 | rdUnmapped0C0 | rdUnmapped100 | rdUnmapped200 | rdUnmapped400 =>
    refine ⟨false, rfl, ?_⟩
    simp (disch := omega) only [unmappedRead, if_pos, if_neg, ofNat_word_of_offset, Bool.false_eq_true, if_false]
  case wrUnmapped090 | wrUnmapped0A0 | wrUnmapped0C0 | wrUnmapped100 | wrUnmapped200 | wrUnmapped400 =>
    refine ⟨true, rfl, ?_⟩
    simp (disch := omega) only [unmappedWrite, if_pos, if_neg, ofNat_word_of_offset, encode, writeTd, if_true]

theorem encode_unmappedAccess_desc (p : Params) {write : Bool} {off : Nat} {v : Word} {i : Instr} (h4 : off % 4 = 0)
    (h : unmappedAccess write off v = .ok i) : (encode p i).desc = wordDescriptor write off := by
  rw [unmappedAccess] at h
  split at h
  case isFalse => cases h
  cases h
  cases write
  · simp only [unmappedRead, wordDescriptor, Bool.false_eq_true, if_false]
    split_ifs <;> simp only [encode, readTd, Fin.val_ofNat] <;> congr 1 <;> omega
  · simp only [unmappedWrite, wordDescriptor, if_true]
    split_ifs <;> simp only [encode, writeTd, Fin.val_ofNat] <;> congr 1 <;> omega

/-! ### The word accesses (R111, R112) -/

/-- An instruction whose descriptor is a word access is decoded to what that access answers. -/
theorem decode_encode_of_word {p : Params} {i : Instr} {write : Bool} {off : Nat}
    (hdesc : (encode p i).desc = wordDescriptor write off) (hoff : off < 4096) (h4 : off % 4 = 0)
    (hi : wordAccess p write off (encode p i).data = .ok i) : decode p (encode p i) = .ok i :=
  calc decode p (encode p i)
      = decode p ⟨wordDescriptor write off, (encode p i).data, (encode p i).x⟩ := by rw [← hdesc]
    _ = wordAccess p write off (encode p i).data := decode_word p write off _ _ hoff h4
    _ = .ok i := hi

theorem decode_encode_register {p : Params} (hp : p.LayoutOk) {i : Instr}
    (h : i ∈ registerAccesses (encode p i).data) : decode p (encode p i) = .ok i := by
  have h4 : p.regBase % 4 = 0 := hp.1
  obtain ⟨write, k, hi⟩ := exists_registerAccess_of_mem h
  obtain ⟨hk, hdesc⟩ := encode_registerAccess_desc p hi
  exact decode_encode_of_word hdesc (register_offset_lt hp hk) (by omega) (wordAccess_register p hp write k hk _ i hi)

theorem decode_encode_bufferWord {p : Params} (hp : p.LayoutOk) (write : Bool) (b : BufId) (k : WordIx) (v : Word) :
    decode p (encode p (if write then .wrBuf b k v else .rdBuf b k)) =
      .ok (if write then .wrBuf b k v else .rdBuf b k) := by
  have hoff := buffer_offset_lt hp (bufOff_inBuffers p b k)
  have h4 := bufOff_aligned hp b k
  cases write
  · exact decode_encode_of_word (write := false) rfl hoff h4 (wordAccess_buffer p false b k _)
  · exact decode_encode_of_word (write := true) rfl hoff h4 (wordAccess_buffer p true b k v)

theorem decode_encode_unmapped {p : Params} {i : Instr} (hplaced : i.Placed p) {off : Nat}
    (h : off ∈ i.unmappedOffset) : decode p (encode p i) = .ok i := by
  obtain ⟨hr, hb⟩ := hplaced off h
  obtain ⟨-, hhi, h4⟩ := unmappedOffset_range h
  obtain ⟨write, hdesc, hi⟩ := unmappedAccess_row p h
  exact decode_encode_of_word hdesc (by omega) h4 ((wordAccess_unmapped p write off _ h4 hr hb).trans hi)

/-- A word access that answers an instruction is named by that instruction's descriptor. -/
theorem encode_wordAccess_desc {p : Params} (hp : p.LayoutOk) {write : Bool} {off : Nat} {v : Word} {i : Instr}
    (h4 : off % 4 = 0) (h : wordAccess p write off v = .ok i) : (encode p i).desc = wordDescriptor write off := by
  by_cases hb : p.InBuffers off
  · obtain ⟨b, k, rfl⟩ := exists_bufOff hp hb h4
    rw [wordAccess_buffer] at h
    cases h
    cases write <;> rfl
  by_cases hr : p.InRegisters off
  · obtain ⟨k, hk, rfl⟩ := exists_register_offset hp hr h4
    obtain ⟨j, hj⟩ := exists_registerAccess write hk v
    rw [wordAccess_register p hp write k hk v j hj] at h
    cases h
    exact (encode_registerAccess_desc p hj).2
  · rw [wordAccess_unmapped p write off v h4 hr hb] at h
    exact encode_unmappedAccess_desc p h4 h

/-! ### The sub-word writes (R193, R194) -/

theorem subWordWrite_of_inBuffers {p : Params} {off : Nat} (h : p.InBuffers off) (half : Bool) (v : Word) :
    subWordWrite p half off v = .ok (if half
      then .wrBufH (.ofNat 32 ((off - p.bufBase) / 64)) (.ofNat 32 ((off - p.bufBase) / 2)) v
      else .wrBufB (.ofNat 32 ((off - p.bufBase) / 64)) (.ofNat 64 (off - p.bufBase)) v) := by
  rw [subWordWrite, if_neg (not_not_intro h)]
  cases half <;> rfl

/-- A sub-word descriptor at or after the start of packet buffer memory passes the checks of R112. -/
theorem decode_subWord (p : Params) (half : Bool) (off : Nat) (v : Word) (x : Slots) (h : off < 4096)
    (hbase : p.bufBase ≤ off) (h2 : half = true → off % 2 = 0) :
    decode p ⟨subWordDescriptor half off, v, x⟩ = subWordWrite p half off v := by
  have hn : (if half then 0x3000 else 0x1000) + off = 4096 + 8192 * half.toNat + off := by cases half <;> simp
  have hh : half.toNat ≤ 1 := by cases half <;> simp
  have ho : bitField (4096 + 8192 * half.toNat + off) 0 12 = off := by simp only [bitField]; omega
  have hd : bitField (4096 + 8192 * half.toNat + off) 12 1 = 1 := by simp only [bitField]; omega
  have hs : bitField (4096 + 8192 * half.toNat + off) 13 2 = half.toNat := by simp only [bitField]; omega
  have ht : bitField (4096 + 8192 * half.toNat + off) 15 17 = 0 := by simp only [bitField]; omega
  have hf : bitField (4096 + 8192 * half.toNat + off) 31 1 = 0 := by simp only [bitField]; omega
  rw [subWordDescriptor, hn]
  simp only [decode, decodeTransaction, BitVec.toNat_ofNat,
    Nat.mod_eq_of_lt (by omega : 4096 + 8192 * half.toNat + off < 2 ^ 32), ho, hd, hs, ht, hf]
  cases half <;> simp [hbase, h2]

theorem decode_encode_byteWrite {p : Params} (hp : p.LayoutOk) (b : BufId) (j : ByteIx) (v : Word) :
    decode p (encode p (.wrBufB b j v)) = .ok (.wrBufB b j v) := by
  have hin : p.InBuffers (p.bufBase + 64 * b.val + j.val) := by
    simp only [Params.InBuffers, Config.bufMemBytes]; omega
  have hb : Fin.ofNat 32 ((p.bufBase + 64 * b.val + j.val - p.bufBase) / 64) = b :=
    Fin.ext (by simp only [Fin.ofNat]; omega)
  have hj : Fin.ofNat 64 (p.bufBase + 64 * b.val + j.val - p.bufBase) = j := Fin.ext (by simp only [Fin.ofNat]; omega)
  refine (decode_subWord p false _ v {} (buffer_offset_lt hp hin) hin.1 nofun).trans ?_
  rw [subWordWrite_of_inBuffers hin, hb, hj]
  rfl

theorem decode_encode_halfwordWrite {p : Params} (hp : p.LayoutOk) (b : BufId) (h : Fin 32) (v : Word) :
    decode p (encode p (.wrBufH b h v)) = .ok (.wrBufH b h v) := by
  have h64 : p.bufBase % 64 = 0 := hp.2.1
  have hin : p.InBuffers (p.bufBase + 64 * b.val + 2 * h.val) := by
    simp only [Params.InBuffers, Config.bufMemBytes]; omega
  have hb : Fin.ofNat 32 ((p.bufBase + 64 * b.val + 2 * h.val - p.bufBase) / 64) = b :=
    Fin.ext (by simp only [Fin.ofNat]; omega)
  have hh : Fin.ofNat 32 ((p.bufBase + 64 * b.val + 2 * h.val - p.bufBase) / 2) = h :=
    Fin.ext (by simp only [Fin.ofNat]; omega)
  refine (decode_subWord p true _ v {} (buffer_offset_lt hp hin) hin.1 fun _ => by omega).trans ?_
  rw [subWordWrite_of_inBuffers hin, hb, hh]
  rfl

/-- A sub-word write that answers an instruction is named by that instruction's descriptor. -/
theorem encode_subWordWrite_desc {p : Params} (hp : p.LayoutOk) {half : Bool} {off : Nat} {v : Word} {i : Instr}
    (h2 : half = true → off % 2 = 0) (h : subWordWrite p half off v = .ok i) :
    (encode p i).desc = subWordDescriptor half off := by
  have h64 : p.bufBase % 64 = 0 := hp.2.1
  by_cases hin : p.InBuffers off
  case neg =>
    rw [subWordWrite, if_pos hin] at h
    cases h
  rw [subWordWrite_of_inBuffers hin] at h
  simp only [Params.InBuffers, Config.bufMemBytes] at hin
  cases half <;> cases h
  · simp only [encode, Fin.ofNat, subWordDescriptor, Bool.false_eq_true, if_false]
    congr 1
    omega
  · have heven := h2 rfl
    simp only [encode, Fin.ofNat, subWordDescriptor, if_true]
    congr 1
    omega

/-! ### The operations (R115, R116) -/

theorem encode_operationOf_desc (p : Params) (x : Slots) (n : Nat) (hn : n < 16) :
    (encode p (operationOf x n)).desc = BitVec.ofNat 32 (0x80000000 + 0x1000000 * n) := by
  interval_cases n <;> rfl

/-- An operation descriptor with no reserved bit set is its code's operation. -/
theorem decode_operation (p : Params) (n : Nat) (hn : n < 16) (v : Word) (x : Slots) :
    decode p ⟨BitVec.ofNat 32 (0x80000000 + 0x1000000 * n), v, x⟩ = .ok (operationOf x n) := by
  have hf : bitField (0x80000000 + 0x1000000 * n) 31 1 = 1 := by simp only [bitField]; omega
  have hr : bitField (0x80000000 + 0x1000000 * n) 28 3 = 0 := by simp only [bitField]; omega
  have hl : bitField (0x80000000 + 0x1000000 * n) 0 24 = 0 := by simp only [bitField]; omega
  have hc : bitField (0x80000000 + 0x1000000 * n) 24 4 = n := by simp only [bitField]; omega
  simp [decode, decodeOperation, Nat.mod_eq_of_lt (by omega : 0x80000000 + 0x1000000 * n < 4294967296), hf, hr, hl, hc]

theorem decode_encode_operation (p : Params) {i : Instr} (n : Nat) (hn : n < 16)
    (hi : operationOf (encode p i).x n = i) : decode p (encode p i) = .ok i := by
  have hdesc := encode_operationOf_desc p (encode p i).x n hn
  rw [hi] at hdesc
  calc decode p (encode p i)
      = decode p ⟨BitVec.ofNat 32 (0x80000000 + 0x1000000 * n), (encode p i).data, (encode p i).x⟩ := by rw [← hdesc]
    _ = .ok (operationOf (encode p i).x n) := decode_operation p n hn _ _
    _ = .ok i := by rw [hi]

/-- An operation descriptor that is decoded has no bit set beside bit 31 and its code. -/
theorem encode_decodeOperation_desc (p : Params) {d : Word} {x : Slots} {i : Instr} (h31 : bitField d.toNat 31 1 = 1)
    (h : decodeOperation d.toNat x = .ok i) : (encode p i).desc = d := by
  have hd := d.isLt
  rw [decodeOperation] at h
  split at h
  case isTrue => cases h
  case isFalse hfields =>
    cases h
    rw [encode_operationOf_desc p x _ (by simp only [bitField]; omega)]
    apply BitVec.eq_of_toNat_eq
    simp only [bitField, BitVec.toNat_ofNat] at h31 hfields ⊢
    omega

/-! ### The transaction descriptors (R111, R112) -/

theorem bitField_lt (d lo n : Nat) : bitField d lo n < 2 ^ n := Nat.mod_lt _ (by positivity)

/-- The fields of R111 are all the bits of a descriptor. -/
theorem toNat_eq_bitFields (d : Word) : d.toNat = bitField d.toNat 0 12 + 4096 * bitField d.toNat 12 1 +
    8192 * bitField d.toNat 13 2 + 32768 * bitField d.toNat 15 17 := by
  have hd := d.isLt
  simp only [bitField]
  omega

/-- What a transaction descriptor that is decoded looks like: a word access, or a sub-word write. -/
theorem decodeTransaction_ok {p : Params} {d : Word} {v : Word} {i : Instr}
    (h : decodeTransaction p d.toNat v = .ok i) :
    ∃ off, (∃ write, d = wordDescriptor write off ∧ off % 4 = 0 ∧ wordAccess p write off v = .ok i) ∨
      (∃ half, d = subWordDescriptor half off ∧ (half = true → off % 2 = 0) ∧ subWordWrite p half off v = .ok i) := by
  have hd := toNat_eq_bitFields d
  have hoff := bitField_lt d.toNat 0 12
  have hwrite := bitField_lt d.toNat 12 1
  have hsize := bitField_lt d.toNat 13 2
  refine ⟨bitField d.toNat 0 12, ?_⟩
  simp only [decodeTransaction] at h
  split_ifs at h with htop hsz halign hsub hhalf hword
  · refine .inl ⟨_, BitVec.eq_of_toNat_eq ?_, by omega, h⟩
    by_cases hw : bitField d.toNat 12 1 = 1 <;>
      simp only [hw, decide_true, decide_false, Bool.false_eq_true, if_true, if_false, BitVec.toNat_ofNat] <;> omega
  · refine .inr ⟨_, BitVec.eq_of_toNat_eq ?_, fun hh => ?_, h⟩
    · by_cases hh : bitField d.toNat 13 2 = 1 <;>
        simp only [hh, decide_true, decide_false, Bool.false_eq_true, if_true, if_false, BitVec.toNat_ofNat] <;> omega
    · rw [decide_eq_true_eq] at hh
      omega

/-! ### The round trip -/

/-- Every instruction that is placed at the layout is decoded from its encoding. -/
theorem decode_encode {p : Params} (hp : p.LayoutOk) (i : Instr) (hplaced : i.Placed p) :
    decode p (encode p i) = .ok i := by
  cases i with
  | rdBuf b k => exact decode_encode_bufferWord hp false b k 0
  | wrBuf b k v => exact decode_encode_bufferWord hp true b k v
  | wrBufB b j v => exact decode_encode_byteWrite hp b j v
  | wrBufH b h v => exact decode_encode_halfwordWrite hp b h v
  | rdUnmapped090 | wrUnmapped090 | rdUnmapped0A0 | wrUnmapped0A0 | rdUnmapped0C0 | wrUnmapped0C0
  | rdUnmapped100 | wrUnmapped100 | rdUnmapped200 | wrUnmapped200 | rdUnmapped400 | wrUnmapped400 =>
    exact decode_encode_unmapped hplaced rfl
  | init => exact decode_encode_operation p 0 (by decide) rfl
  | configureOutEndpoint => exact decode_encode_operation p 1 (by decide) rfl
  | configureInEndpoint => exact decode_encode_operation p 2 (by decide) rfl
  | setEpStalling => exact decode_encode_operation p 3 (by decide) rfl
  | setDeviceAddress => exact decode_encode_operation p 4 (by decide) rfl
  | connect => exact decode_encode_operation p 5 (by decide) rfl
  | disconnect => exact decode_encode_operation p 6 (by decide) rfl
  | connected => exact decode_encode_operation p 7 (by decide) rfl
  | supplyBuffers => exact decode_encode_operation p 8 (by decide) rfl
  | sendPacket => exact decode_encode_operation p 9 (by decide) rfl
  | packetCollected => exact decode_encode_operation p 10 (by decide) rfl
  | recvPacket => exact decode_encode_operation p 11 (by decide) rfl
  | transferToDevice => exact decode_encode_operation p 12 (by decide) rfl
  | transferFromDevice => exact decode_encode_operation p 13 (by decide) rfl
  | interruptEnable => exact decode_encode_operation p 14 (by decide) rfl
  | interruptDisable => exact decode_encode_operation p 15 (by decide) rfl
  | _ => exact decode_encode_register hp (by simp [registerAccesses, registerReads, registerWrites, encode, writeTd])

/-- At the default layout every unmapped row is placed (R195). -/
theorem placed_default (i : Instr) : i.Placed .default := by
  intro off h
  obtain ⟨hlo, hhi, -⟩ := unmappedOffset_range h
  simp only [Params.InRegisters, Params.InBuffers, Params.default, Config.regBytes]
  omega

/-- Settles O1: by cases on the instruction's format; at the default layout every instruction is placed. -/
theorem decodeEncode : Obligations.DecodeEncode :=
  ⟨fun i => decode_encode (by decide) i (placed_default i), fun _ i hp hplaced => decode_encode hp i hplaced⟩

/-- Settles O2: by cases on the format that bit 31 selects and on `SZ`. -/
theorem decodeReadsWholeDescriptor : Obligations.DecodeReadsWholeDescriptor := by
  intro p c i hp h
  rw [decode] at h
  split at h
  case isTrue h31 => exact encode_decodeOperation_desc p h31 h
  case isFalse =>
    obtain ⟨off, ⟨write, hd, h4, hw⟩ | ⟨half, hd, h2, hs⟩⟩ := decodeTransaction_ok h
    · rw [hd, encode_wordAccess_desc hp h4 hw]
    · rw [hd, encode_subWordWrite_desc hp h2 hs]

end Sys2Proof.Machine

/-! SUPPORT. The moves everything a step is made of comes down to, as far as the machine's invariant sees it: one
transaction of `SW` (R141 to R192) and one step of `DEV` (R310 to R321) is a chain of them, so what every move keeps
every step keeps. -/

namespace Sys2Proof.Machine

/-- The fields of State the clauses of the invariant speak of, the registers of `ReservedZero` apart. -/
structure InvPart where
  params : Params
  mem : List Host.Cell
  configIn : Vector Word 12
  avOut : List BufId
  avSetup : List BufId
  rx : List RxEntry
  owner : Vector Owner 32
  inOwn : Vector (Option BufId) 12
  faults : List FaultReason
  refused : Bool

/-- The part of a state the clauses of the invariant speak of. -/
def State.invPart (s : State) : InvPart :=
  { params := s.params, mem := s.mem, configIn := s.configIn, avOut := s.avOut, avSetup := s.avSetup, rx := s.rx,
    owner := s.owner, inOwn := s.inOwn, faults := s.faults, refused := s.refused }

/-- The moves of the machine. -/
inductive Move (s : State) : State → Prop
  /-- nothing but registers, buffer memory, logs, draws, the schedule, the pc and the results -/
  | plain {t : State} (hpart : t.invPart = s.invPart) (hres : s.ReservedZero → t.ReservedZero) : Move s t
  /-- WR AVOUTBUFFER (R158) -/
  | supplyOut (b : BufId) (hown : s.ownerOf b = .sw) (hfull : s.avOut.length ≠ s.params.avOutCap) :
      Move s ({ s with avOut := s.avOut ++ [b] }.handOff b)
  /-- WR AVSETUPBUFFER (R160) -/
  | supplySetup (b : BufId) (hown : s.ownerOf b = .sw) (hfull : s.avSetup.length ≠ s.params.avSetupCap) :
      Move s ({ s with avSetup := s.avSetup ++ [b] }.handOff b)
  /-- RD RXFIFO (R161) -/
  | pop (e : RxEntry) (rest : List RxEntry) (hrx : s.rx = e :: rest) : Move s ({ s with rx := rest }.takeBack e.buf)
  /-- one endpoint's part of RD IN_SENT (R169) -/
  | collect (e : EpId) (b : BufId) (hin : s.inOwnOf e = some b) : Move s ((s.takeBack b).setInOwn e none)
  /-- WR CONFIGIN without Ready (R176) -/
  | configure (e : EpId) (c : Word) (hin : s.inOwnOf e = none) (hmask : c &&& ~~~configInMask = 0#32)
      (hsending : sendingBit c = false) (hready : readyBit c = false) : Move s (s.setConfig e c)
  /-- WR CONFIGIN with Ready (R176) -/
  | send (e : EpId) (c : Word) (hin : s.inOwnOf e = none) (hmask : c &&& ~~~configInMask = 0#32)
      (hsending : sendingBit c = false) (hsize : (sizeField c).toNat ≤ 64) (hown : s.ownerOf (bufIdOf c) = .sw) :
      Move s (((s.handOff (bufIdOf c)).setInOwn e (some (bufIdOf c))).setConfig e c)
  /-- the flags of an IN record (R313, R314, R315, R318) -/
  | flags (e : EpId) (ready pending sending : Bool) (hsending : sending = true → ready = true)
      (hready : ready = true → readyBit (s.configOf e) = true) :
      Move s (s.setConfig e (withInFlags (s.configOf e) ready pending sending))
  /-- the head of AVSETUP received into (R310) -/
  | receiveSetup (e : RxEntry) (rest : List BufId) (hhead : s.avSetup = e.buf :: rest)
      (hcap : s.rx.length < s.params.rxCap) (hmade : e.size.toNat ≤ 64 ∧ e.ep.toNat < 12) :
      Move s { s with avSetup := rest, rx := s.rx ++ [e] }
  /-- the head of AVOUT received into (R311) -/
  | receiveOut (e : RxEntry) (rest : List BufId) (hhead : s.avOut = e.buf :: rest)
      (hcap : s.rx.length < s.params.rxCap) (hmade : e.size.toNat ≤ 64 ∧ e.ep.toNat < 12) :
      Move s { s with avOut := rest, rx := s.rx ++ [e] }
  /-- a byte stored to `MEM` (R291) -/
  | store (addr : Nat) (v : Byte) : Move s { s with mem := Memory.set s.mem addr v }

/-- A chain of moves. -/
abbrev Moves : State → State → Prop := Relation.ReflTransGen Move

/-! ### Reserved bits of a word -/

theorem reserved_or {a b m : Word} (ha : a &&& ~~~m = 0#32) (hb : b &&& ~~~m = 0#32) : (a ||| b) &&& ~~~m = 0#32 := by
  rw [BitVec.and_or_distrib_right, ha, hb, BitVec.or_self]

theorem reserved_and {a m : Word} (ha : a &&& ~~~m = 0#32) (b : Word) : (a &&& b) &&& ~~~m = 0#32 := by
  rw [BitVec.and_assoc, BitVec.and_comm b, ← BitVec.and_assoc, ha, BitVec.zero_and]

theorem reserved_and_mask (v m : Word) : (v &&& m) &&& ~~~m = 0#32 := by
  rw [BitVec.and_assoc, BitVec.and_not_self]
  exact BitVec.and_zero

theorem reserved_setEpBit {w : Word} (h : w &&& ~~~epMask = 0#32) (e : EpId) (on : Bool) :
    setEpBit w e on &&& ~~~epMask = 0#32 := by
  refine reserved_or (reserved_and h _) ?_
  revert e on
  decide

theorem reserved_intrBit {w : Word} (h : w &&& ~~~intrMask = 0#32) (i : Fin 18) :
    (w ||| bit i.val) &&& ~~~intrMask = 0#32 := by
  refine reserved_or h ?_
  revert i
  decide

/-- The word a CONFIGIN write stores, with Pending as drawn or kept (R176). -/
abbrev storedConfig (v : Word) (pending : Bool) : Word := (v &&& configInWriteMask) ||| (flag pending <<< 30)

theorem readyBit_storedConfig (v : Word) (p : Bool) : readyBit (storedConfig v p) = readyBit v := by
  simp [readyBit, configInWriteMask]

theorem sendingBit_storedConfig (v : Word) (p : Bool) : sendingBit (storedConfig v p) = false := by
  simp [sendingBit, configInWriteMask]

theorem sizeField_storedConfig (v : Word) (p : Bool) : sizeField (storedConfig v p) = sizeField v := by
  have hmask : configInWriteMask.extractLsb' 8 7 = BitVec.allOnes 7 := by decide
  have hflag : (flag p <<< 30).extractLsb' 8 7 = 0#7 := by revert p; decide
  rw [sizeField, storedConfig, BitVec.extractLsb'_or, BitVec.extractLsb'_and, hmask, hflag, BitVec.and_allOnes,
    BitVec.or_zero, sizeField]

theorem bufIdOf_storedConfig (v : Word) (p : Bool) : bufIdOf (storedConfig v p) = bufIdOf v := by
  have hflag : (flag p <<< 30).toNat % 2 ^ 5 = 0 := by revert p; decide
  apply Fin.ext
  show ((v &&& configInWriteMask) ||| flag p <<< 30).toNat % 2 ^ 5 = v.toNat % 2 ^ 5
  rw [BitVec.toNat_or, BitVec.toNat_and, Nat.or_mod_two_pow, Nat.and_mod_two_pow, hflag, Nat.or_zero,
    show configInWriteMask.toNat % 2 ^ 5 = 2 ^ 5 - 1 by decide, Nat.and_two_pow_sub_one_eq_mod, Nat.mod_mod]

theorem reserved_storedConfig (v : Word) (p : Bool) : storedConfig v p &&& ~~~configInMask = 0#32 := by
  refine reserved_or ?_ (by revert p; decide)
  rw [BitVec.and_assoc, show configInWriteMask &&& ~~~configInMask = 0#32 by decide, BitVec.and_zero]

theorem storeConfig_eq (e : EpId) (v : Word) (s : State) :
    ∃ p n, storeConfig e v s = ({ s with draws := n } : State).setConfig e (storedConfig v p) := by
  unfold storeConfig
  split
  · exact ⟨Config.freeBool s.draws, s.draws + 1, rfl⟩
  · exact ⟨pendingBit (s.configOf e), s.draws, rfl⟩

/-! ### The transactions of `SW` are chains of moves -/

theorem Move.refl (s : State) : Move s s := .plain rfl id

theorem Move.book (s : State) (p : Pc) (r : List Word) (q : List (List DevStep)) :
    Move s { s with pc := p, results := r, sched := q } := .plain rfl id

theorem draws_move (s : State) (n : Nat) : Move s { s with draws := n } := .plain rfl id

theorem ownerOf_eq_sw {s : State} {b : BufId} (h : ¬ s.ownerOf b = .hw) : s.ownerOf b = .sw := by
  cases ho : s.ownerOf b
  · rfl
  · exact absurd ho h

theorem collect_move (sent : Word) (s : State) (e : EpId) : Move s (collect sent s e) := by
  unfold collect
  split
  · split
    case h_1 b hin => exact .collect e b hin
    case h_2 => exact .refl s
  · exact .refl s

theorem collects_moves (sent : Word) (es : List EpId) (s : State) : Moves s (es.foldl (collect sent) s) := by
  induction es generalizing s with
  | nil => exact .refl
  | cons e es ih => exact .head (collect_move sent s e) (ih _)

theorem regRead_moves {r : Reg} {s t : State} {v : Word} (h : regRead r s = .next (v, t)) : Moves s t := by
  cases r with
  | avOutBuffer | avSetupBuffer => exact absurd h (refuse_ne_next _ _ _)
  | inSent =>
    cases h
    exact collects_moves _ _ s
  | rxFifo =>
    rw [regRead, readRxFifo] at h
    split at h
    case h_1 => cases h; exact .single (draws_move s _)
    case h_2 e rest hrx => cases h; exact .single (.pop e rest hrx)
  | phyPinsSense => cases h; exact .single (draws_move s _)
  | _ => cases h; exact .refl

theorem writeAvOut_moves {v : Word} {s t : State} (h : writeAvOut v s = .next t) : Moves s t := by
  simp only [writeAvOut] at h
  split_ifs at h with hown hfull
  · cases h
  · cases h
  · cases h
    exact .single (.supplyOut _ (ownerOf_eq_sw hown) hfull)

theorem writeAvSetup_moves {v : Word} {s t : State} (h : writeAvSetup v s = .next t) : Moves s t := by
  simp only [writeAvSetup] at h
  split_ifs at h with hown hfull
  · cases h
  · cases h
  · cases h
    exact .single (.supplySetup _ (ownerOf_eq_sw hown) hfull)

theorem inHandOff_eq_next {e : EpId} {v : Word} {s t : State} (h : inHandOff e v s = .next t) :
    (sizeField v).toNat ≤ 64 ∧ s.ownerOf (bufIdOf v) = .sw ∧
      t = (s.handOff (bufIdOf v)).setInOwn e (some (bufIdOf v)) := by
  simp only [inHandOff] at h
  split_ifs at h with hsize hown
  · cases h
  · cases h
  · cases h
    exact ⟨Nat.le_of_not_lt hsize, ownerOf_eq_sw hown, rfl⟩

theorem send_move {s : State} {e : EpId} {v : Word} (p : Bool) (hin : s.inOwnOf e = none)
    (hsize : (sizeField v).toNat ≤ 64) (hown : s.ownerOf (bufIdOf v) = .sw) :
    Move s (((s.handOff (bufIdOf v)).setInOwn e (some (bufIdOf v))).setConfig e (storedConfig v p)) := by
  have hmove := Move.send e (storedConfig v p) hin (reserved_storedConfig v p) (sendingBit_storedConfig v p)
    (by rwa [sizeField_storedConfig]) (by rwa [bufIdOf_storedConfig])
  rwa [bufIdOf_storedConfig] at hmove

theorem writeConfigIn_moves {e : EpId} {v : Word} {s t : State} (h : writeConfigIn e v s = .next t) :
    Moves s t := by
  simp only [writeConfigIn] at h
  split_ifs at h with hbusy hin hready
  · cases h
  · cases h
  · obtain ⟨u, hu, ht⟩ := andThen_eq_next.1 h
    obtain ⟨hsize, hown, rfl⟩ := inHandOff_eq_next hu
    obtain ⟨p, n, hstore⟩ := storeConfig_eq e v ((s.handOff (bufIdOf v)).setInOwn e (some (bufIdOf v)))
    cases ht
    rw [hstore]
    exact .head (draws_move s n) (.single (send_move p (Option.not_isSome_iff_eq_none.1 hin) hsize hown))
  · obtain ⟨p, n, hstore⟩ := storeConfig_eq e v s
    cases h
    rw [hstore]
    exact .head (draws_move s n) (.single (.configure e _ (Option.not_isSome_iff_eq_none.1 hin)
      (reserved_storedConfig v p) (sendingBit_storedConfig v p)
      (by rw [readyBit_storedConfig, Bool.eq_false_iff]; exact hready)))

theorem regWrite_moves {r : Reg} {v : Word} {s t : State} (h : regWrite r v s = .next t) : Moves s t := by
  cases r with
  | usbstat | rxFifo | outDataToggle | inDataToggle | phyPinsSense => exact absurd h (refuse_ne_next _ _ _)
  | avOutBuffer => exact writeAvOut_moves h
  | avSetupBuffer => exact writeAvSetup_moves h
  | configIn e => exact writeConfigIn_moves h
  | alertTest | setNakOut | phyPinsDrive =>
    simp only [regWrite] at h
    split at h
    · cases h
    · cases h; exact .refl
  | usbctrl | phyConfig =>
    simp only [regWrite] at h
    split at h
    · cases h
    · cases h
      exact .single (.plain rfl fun hres => by
        simp only [State.ReservedZero, State.configOf] at hres ⊢
        simp only [hres, reserved_and_mask, implies_true, and_self])
  | _ =>
    cases h
    exact .single (.plain rfl fun hres => by
      simp only [State.ReservedZero, State.configOf] at hres ⊢
      simp only [hres, reserved_and, reserved_or, reserved_and_mask, implies_true, and_self])

theorem bufWrite_move {b : BufId} {k : WordIx} {v : Word} {s t : State} (h : bufWrite b k v s = .next t) :
    Move s t := by
  rw [bufWrite] at h
  split at h
  · cases h
  · cases h; exact .plain rfl id

/-! ### The steps of `DEV` are chains of moves -/

theorem setIntr_move (s : State) (src : IntrSource) : Move s (s.setIntr src) :=
  .plain rfl fun h => ⟨reserved_intrBit h.1 _, h.2⟩

theorem setIntrIf_move (s : State) (c : Bool) (src : IntrSource) : Move s (s.setIntrIf c src) := by
  cases c
  · exact .refl s
  · exact setIntr_move s src

theorem setBuffer_move (s : State) (b : BufId) (im : Vector Byte 64) : Move s (s.setBuffer b im) := .plain rfl id

theorem txLog_move (s : State) (entry : TxEntry) : Move s { s with txLog := s.txLog ++ [entry] } := .plain rfl id

theorem status_move (s : State) (frame : BitVec 11) (hostLost : Bool) (linkState : BitVec 3) :
    Move s { s with frame := frame, hostLost := hostLost, linkState := linkState } := .plain rfl id

theorem outToggle_move (s : State) (ep : EpId) (on : Bool) :
    Move s { s with outToggle := setEpBit s.outToggle ep on } :=
  .plain rfl fun h => by
    simp only [State.ReservedZero, State.configOf] at h ⊢
    simp only [h, reserved_setEpBit, implies_true, and_self]

theorem inToggle_move (s : State) (ep : EpId) (on : Bool) : Move s { s with inToggle := setEpBit s.inToggle ep on } :=
  .plain rfl fun h => by
    simp only [State.ReservedZero, State.configOf] at h ⊢
    simp only [h, reserved_setEpBit, implies_true, and_self]

theorem inSent_move (s : State) (ep : EpId) (on : Bool) : Move s { s with inSent := setEpBit s.inSent ep on } :=
  .plain rfl fun h => by
    simp only [State.ReservedZero, State.configOf] at h ⊢
    simp only [h, reserved_setEpBit, implies_true, and_self]

theorem clearStalls_move (s : State) (ep : EpId) : Move s (clearStalls ep s) := by
  unfold clearStalls
  split
  · exact .plain rfl fun h => by
      simp only [State.ReservedZero, State.configOf] at h ⊢
      simp only [h, reserved_setEpBit, implies_true, and_self]
  · exact .refl s

theorem eventStatus_move (s : State) (k : EventKind) : Move s (eventStatus k s) := by
  cases k <;> exact .plain rfl id

/-- The entry a received packet makes (R310, R311). -/
abbrev receivedEntry (b : BufId) (n : Fin 65) (setup : Bool) (ep : EpId) : RxEntry :=
  { buf := b, size := BitVec.ofNat 7 n.val, setup := setup, ep := BitVec.ofNat 4 ep.val }

theorem receivedEntry_made (b : BufId) (n : Fin 65) (setup : Bool) (ep : EpId) :
    (receivedEntry b n setup ep).size.toNat ≤ 64 ∧ (receivedEntry b n setup ep).ep.toNat < 12 := by
  simp only [BitVec.toNat_ofNat]
  omega

/-- Beside its entry in RX a received packet changes only buffer memory and interrupt bits. -/
theorem receive_moves (b : BufId) (n : Fin 65) (setup : Bool) (ep : EpId) (im : Vector Byte 64) (s : State) :
    Moves { s with rx := s.rx ++ [receivedEntry b n setup ep] } (receive b n setup ep im s) :=
  .head (setBuffer_move _ b im) <| .head (setIntr_move _ .packetReceived) <| .single (setIntrIf_move _ _ .receiveFull)

theorem setupCancel_move (s : State) (ep : EpId) (cancel : Bool) : Move s (setupCancel ep cancel s) := by
  unfold setupCancel
  dsimp only
  split
  · exact .flags ep false true false nofun nofun
  · exact .refl s

theorem linkRxSetup_moves {ep : EpId} {n : Fin 65} {im : Vector Byte 64} {c o i : Bool} {s t : State}
    (h : linkRxSetup ep n im c o i s = some t) : Moves s t := by
  obtain ⟨hguard, h⟩ := Option.ite_none_right_eq_some.1 h
  simp only [Bool.and_eq_true, decide_eq_true_eq] at hguard
  split at h
  case h_1 => cases h
  case h_2 b rest hq =>
    cases h
    refine .head (.receiveSetup (receivedEntry b n true ep) rest hq hguard.2 (receivedEntry_made b n true ep)) ?_
    refine (receive_moves b n true ep im { s with avSetup := rest }).trans ?_
    exact .head (setIntrIf_move _ rest.isEmpty .availableSetupEmpty) <| .head (clearStalls_move _ ep) <|
      .head (setupCancel_move _ ep c) <| .head (outToggle_move _ ep o) <| .single (inToggle_move _ ep i)

theorem linkRxOut_moves {ep : EpId} {n : Fin 65} {im : Vector Byte 64} {o : Bool} {s t : State}
    (h : linkRxOut ep n im o s = some t) : Moves s t := by
  obtain ⟨hguard, h⟩ := Option.ite_none_right_eq_some.1 h
  simp only [Bool.and_eq_true, decide_eq_true_eq] at hguard
  split at h
  case h_1 => cases h
  case h_2 b rest hq =>
    cases h
    refine .head (.receiveOut (receivedEntry b n false ep) rest hq hguard.2 (receivedEntry_made b n false ep)) ?_
    refine (receive_moves b n false ep im { s with avOut := rest }).trans ?_
    exact .head (setIntrIf_move _ rest.isEmpty .availableOutEmpty) <| .single (outToggle_move _ ep o)

theorem linkInStart_moves {ep : EpId} {p : Bool} {s t : State} (h : linkInStart ep p s = some t) : Moves s t := by
  obtain ⟨hguard, h⟩ := Option.ite_none_right_eq_some.1 h
  simp only [Bool.and_eq_true] at hguard
  obtain ⟨⟨-, hready⟩, -⟩ := hguard
  cases h
  exact .single (.flags ep _ p true (fun _ => hready) id)

theorem linkInComplete_moves {ep : EpId} {p i : Bool} {s t : State} (h : linkInComplete ep p i s = some t) :
    Moves s t := by
  obtain ⟨-, h⟩ := Option.ite_none_right_eq_some.1 h
  cases h
  exact .head (txLog_move s (inPacket ep true s)) <| .head (.flags ep false p false nofun nofun) <|
    .head (inSent_move _ ep true) <| .head (inToggle_move _ ep i) <| .single (setIntr_move _ .packetSent)

theorem linkInFail_moves {ep : EpId} {e p : Bool} {s t : State} (h : linkInFail ep e p s = some t) : Moves s t := by
  obtain ⟨-, h⟩ := Option.ite_none_right_eq_some.1 h
  cases h
  exact .head (txLog_move s (inPacket ep false s)) <| .head (.flags ep _ p false nofun id) <|
    .single (setIntrIf_move _ e .linkInError)

theorem linkEvent_moves {k : EventKind} {ls : BitVec 3} {s t : State} (h : linkEvent k ls s = some t) : Moves s t := by
  obtain ⟨-, h⟩ := Option.ite_none_left_eq_some.1 h
  cases h
  exact .head (setIntr_move s k.source) <| .head (status_move _ _ _ ls) <| .single (eventStatus_move _ k)

theorem linkSof_moves {f : BitVec 11} {s t : State} (h : linkSof f s = some t) : Moves s t := by
  obtain ⟨-, h⟩ := Option.ite_none_right_eq_some.1 h
  cases h
  exact .head (status_move s f false _) <| .single (setIntr_move _ .frameUpdated)

theorem linkLevel_moves {src : LevelSource} {s t : State} (h : linkLevel src s = some t) : Moves s t := by
  obtain ⟨-, h⟩ := Option.ite_none_right_eq_some.1 h
  cases h
  exact .single (setIntr_move s src.source)

theorem devEffect_moves {d : DevStep} {s t : State} (h : devEffect d s = some t) : Moves s t := by
  cases d with
  | rxSetup => exact linkRxSetup_moves h
  | rxOut => exact linkRxOut_moves h
  | inStart => exact linkInStart_moves h
  | inComplete => exact linkInComplete_moves h
  | inFail => exact linkInFail_moves h
  | event => exact linkEvent_moves h
  | sof => exact linkSof_moves h
  | level => exact linkLevel_moves h

/-! ### What every move keeps -/

theorem Moves.keep {P : State → Prop} {s t : State} (hmove : ∀ {s t}, Move s t → P s → P t) (h : Moves s t)
    (hs : P s) : P t := by
  induction h with
  | refl => exact hs
  | tail _ hlast ih => exact hmove hlast ih

/-- What every move keeps, every step keeps. -/
theorem closed_of_moves {P : State → Prop} (hmove : ∀ {s t}, Move s t → P s → P t) : Closed P where
  read _ _ _ _ hs h := (regRead_moves h).keep hmove hs
  write _ _ _ _ hs h := (regWrite_moves h).keep hmove hs
  buf _ _ _ _ _ hs h := hmove (bufWrite_move h) hs
  dev _ _ _ hs h := (devEffect_moves (devStep_eq_some.1 h).2).keep hmove hs
  book s p r q := hmove (.book s p r q)
  mem _ a v := hmove (.store a v)

/-! ### Ownership (R61) -/

theorem State.Owned.hwRef_eq_zero {s : State} (h : s.Owned) {b : BufId} (ho : s.ownerOf b = .sw) : s.hwRef b = 0 := by
  obtain ⟨hle, hiff⟩ := h b
  have hne : s.hwRef b ≠ 1 := fun hc => by simp [hiff.2 hc] at ho
  omega

/-- A buffer that moves from one structure to another keeps its owner. -/
theorem State.Owned.of_hwRef_eq {s t : State} (h : s.Owned) (howner : t.owner = s.owner)
    (href : ∀ b, t.hwRef b = s.hwRef b) : t.Owned := fun b => by
  rw [href, State.ownerOf, howner]
  exact h b

/-- A software-owned buffer enters one structure and hardware owns it. -/
theorem State.Owned.of_handOff {s t : State} (h : s.Owned) {b : BufId} (ho : s.ownerOf b = .sw)
    (howner : ∀ b', t.ownerOf b' = if b = b' then .hw else s.ownerOf b')
    (href : ∀ b', t.hwRef b' = s.hwRef b' + if b = b' then 1 else 0) : t.Owned := by
  intro b'
  rw [howner, href]
  by_cases hb : b = b'
  · subst hb
    simp [h.hwRef_eq_zero ho]
  · simpa [hb] using h b'

/-- A buffer leaves the structure it is in and software owns it. -/
theorem State.Owned.of_takeBack {s t : State} (h : s.Owned) {b : BufId}
    (howner : ∀ b', t.ownerOf b' = if b = b' then .sw else s.ownerOf b')
    (href : ∀ b', (t.hwRef b' + if b = b' then 1 else 0) = s.hwRef b') : t.Owned := by
  intro b'
  obtain ⟨hle, hiff⟩ := h b'
  rw [← href b'] at hle hiff
  rw [howner]
  by_cases hb : b = b'
  · have h0 : t.hwRef b' = 0 := by simpa [hb] using hle
    simp [hb, h0]
  · simpa [hb] using And.intro hle hiff

/-- How often a buffer stands in INOWN after one endpoint's entry is replaced. -/
theorem count_setInOwn (s : State) (e : EpId) (o : Option BufId) (b : BufId) :
    (s.setInOwn e o).inOwn.toList.count (some b) + (if s.inOwnOf e = some b then 1 else 0) =
      s.inOwn.toList.count (some b) + if o = some b then 1 else 0 := by
  have hmem : s.inOwnOf e = some b → 0 < s.inOwn.toList.count (some b) := fun h =>
    List.count_pos_iff.2 (by rw [← h]; simp [State.inOwnOf])
  rw [setInOwn_inOwn, Vector.toList_set, List.count_set (by simp)]
  simp only [Vector.getElem_toList, beq_iff_eq]
  change _ - (if s.inOwnOf e = some b then 1 else 0) + _ + _ = _
  by_cases hin : s.inOwnOf e = some b
  · have hpos := hmem hin
    rw [if_pos hin]
    omega
  · rw [if_neg hin]
    omega

theorem State.Owned.of_invPart {s t : State} (h : s.Owned) (hpart : t.invPart = s.invPart) : t.Owned := by
  simp only [State.invPart, InvPart.mk.injEq] at hpart
  simpa only [State.Owned, State.hwRef, State.ownerOf, hpart] using h

theorem Move.owned {s t : State} (hmove : Move s t) (h : s.Owned) : t.Owned := by
  cases hmove with
  | plain hpart _ => exact h.of_invPart hpart
  | supplyOut b hown hfull | supplySetup b hown hfull =>
    refine h.of_handOff hown (ownerOf_handOff _ b) fun b' => ?_
    simp only [State.hwRef, handOff_avOut, handOff_avSetup, handOff_rx, handOff_inOwn, List.count_append,
      List.count_singleton, beq_iff_eq]
    omega
  | pop e rest hrx =>
    refine h.of_takeBack (ownerOf_takeBack _ e.buf) fun b' => ?_
    simp only [State.hwRef, takeBack_avOut, takeBack_avSetup, takeBack_rx, takeBack_inOwn, hrx, List.map_cons,
      List.count_cons, beq_iff_eq]
    omega
  | collect e b hin =>
    refine h.of_takeBack (ownerOf_takeBack s b) fun b' => ?_
    have hcount := count_setInOwn (s.takeBack b) e none b'
    simp only [inOwnOf_takeBack, hin, Option.some.injEq, takeBack_inOwn, reduceCtorEq, if_false] at hcount
    simp only [State.hwRef, setInOwn_avOut, setInOwn_avSetup, setInOwn_rx, takeBack_avOut, takeBack_avSetup,
      takeBack_rx]
    omega
  | configure e c hin hmask hsending hready => exact h
  | send e c hin hmask hsending hsize hown =>
    refine h.of_handOff hown (ownerOf_handOff s _) fun b' => ?_
    have hcount := count_setInOwn (s.handOff (bufIdOf c)) e (some (bufIdOf c)) b'
    simp only [inOwnOf_handOff, hin, Option.some.injEq, handOff_inOwn, reduceCtorEq, if_false] at hcount
    simp only [State.hwRef, setConfig_avOut, setConfig_avSetup, setConfig_rx, setConfig_inOwn, setInOwn_avOut,
      setInOwn_avSetup, setInOwn_rx, handOff_avOut, handOff_avSetup, handOff_rx]
    omega
  | flags e r p n hsending hready => exact h
  | receiveSetup e rest hhead hcap hmade | receiveOut e rest hhead hcap hmade =>
    refine h.of_hwRef_eq rfl fun b => ?_
    simp only [State.hwRef, hhead, List.map_append, List.map_cons, List.map_nil, List.count_append, List.count_cons,
      List.count_nil]
    omega
  | store => exact h

theorem closed_owned : Closed State.Owned := closed_of_moves Move.owned

/-- Settles O59: each move takes a buffer into one structure with its owner, out of it, or from one to another. -/
theorem stepKeepsOwnership : Obligations.StepKeepsOwnership := fun _ _ => closed_owned.step

/-! ### The other clauses of the invariant -/

theorem Move.params_eq {s t : State} (h : Move s t) : t.params = s.params := by
  cases h with
  | plain hpart _ => exact congrArg InvPart.params hpart
  | _ => rfl

theorem Move.isHalted_eq {s t : State} (h : Move s t) : t.isHalted = s.isHalted := by
  cases h with
  | plain hpart _ =>
    have hfaults : t.faults = s.faults := congrArg InvPart.faults hpart
    have hrefused : t.refused = s.refused := congrArg InvPart.refused hpart
    rw [State.isHalted, hfaults, hrefused, State.isHalted]
  | _ => rfl

theorem Move.memory {s t : State} (hmove : Move s t) (h : Memory.wf s.mem = true) : Memory.wf t.mem = true := by
  cases hmove with
  | plain hpart _ => rwa [show t.mem = s.mem from congrArg InvPart.mem hpart]
  | store addr v => exact Memory.wf_set h addr v
  | _ => exact h

theorem State.QueuesInRange.of_invPart {s t : State} (h : s.QueuesInRange) (hpart : t.invPart = s.invPart) :
    t.QueuesInRange := by
  simp only [State.invPart, InvPart.mk.injEq] at hpart
  simpa only [State.QueuesInRange, hpart] using h

/-- A reception makes room in an availability queue and adds one entry to RX. -/
theorem State.QueuesInRange.of_receive {s t : State} {e : RxEntry} (h : s.QueuesInRange) (hparams : t.params = s.params)
    (hout : t.avOut.length ≤ s.avOut.length) (hsetup : t.avSetup.length ≤ s.avSetup.length)
    (hrx : t.rx = s.rx ++ [e]) (hcap : s.rx.length < s.params.rxCap)
    (hmade : e.size.toNat ≤ 64 ∧ e.ep.toNat < 12) : t.QueuesInRange := by
  obtain ⟨houtCap, hsetupCap, -, hentries⟩ := h
  rw [State.QueuesInRange, hparams, hrx, List.length_append, List.length_singleton]
  refine ⟨hout.trans houtCap, hsetup.trans hsetupCap, hcap, fun x hx => ?_⟩
  obtain hx | hx := List.mem_append.1 hx
  · exact hentries x hx
  · rwa [List.mem_singleton.1 hx]

theorem Move.queues {s t : State} (hmove : Move s t) (h : s.QueuesInRange) : t.QueuesInRange := by
  have ⟨houtCap, hsetupCap, hrxCap, hentries⟩ := h
  cases hmove with
  | plain hpart _ => exact h.of_invPart hpart
  | supplyOut b hown hfull =>
    refine ⟨?_, hsetupCap, hrxCap, hentries⟩
    simp only [handOff_avOut, handOff_params, List.length_append, List.length_singleton]
    omega
  | supplySetup b hown hfull =>
    refine ⟨houtCap, ?_, hrxCap, hentries⟩
    simp only [handOff_avSetup, handOff_params, List.length_append, List.length_singleton]
    omega
  | pop e rest hrx =>
    rw [hrx] at hrxCap hentries
    exact ⟨houtCap, hsetupCap, (Nat.le_succ _).trans hrxCap, fun x hx => hentries x (List.mem_cons_of_mem e hx)⟩
  | receiveSetup e rest hhead hcap hmade => exact h.of_receive rfl le_rfl (by simp [hhead]) rfl hcap hmade
  | receiveOut e rest hhead hcap hmade => exact h.of_receive rfl (by simp [hhead]) le_rfl rfl hcap hmade
  | _ => exact h

theorem State.InRecords.of_invPart {s t : State} (h : s.InRecords) (hpart : t.invPart = s.invPart) : t.InRecords := by
  simp only [State.invPart, InvPart.mk.injEq] at hpart
  simpa only [State.InRecords, State.configOf, State.inOwnOf, hpart] using h

/-- Where one endpoint's record changes, only that one is to be looked at. -/
theorem State.InRecords.of_endpoint {s t : State} (h : s.InRecords) (e : EpId)
    (hother : ∀ e', e ≠ e' → t.configOf e' = s.configOf e' ∧ t.inOwnOf e' = s.inOwnOf e')
    (hsending : sendingBit (t.configOf e) = true → readyBit (t.configOf e) = true)
    (hsize : readyBit (t.configOf e) = true → (sizeField (t.configOf e)).toNat ≤ 64)
    (hbuf : ∀ b, t.inOwnOf e = some b → bufIdOf (t.configOf e) = b) : t.InRecords := by
  intro e'
  by_cases he : e = e'
  · subst he
    exact ⟨hsending, hsize, hbuf⟩
  · obtain ⟨hconfig, hin⟩ := hother e' he
    rw [hconfig, hin]
    exact h e'

theorem configOf_setConfig_same (s : State) (e : EpId) (c : Word) : (s.setConfig e c).configOf e = c := by
  rw [configOf_setConfig, if_pos rfl]

theorem configOf_setConfig_other (s : State) {e e' : EpId} (h : e ≠ e') (c : Word) :
    (s.setConfig e c).configOf e' = s.configOf e' := by
  rw [configOf_setConfig, if_neg h]

/-- An IN record replaced, with INOWN as it was. -/
theorem State.InRecords.setConfig {s : State} (h : s.InRecords) (e : EpId) (c : Word)
    (hsending : sendingBit c = true → readyBit c = true) (hsize : readyBit c = true → (sizeField c).toNat ≤ 64)
    (hbuf : ∀ b, s.inOwnOf e = some b → bufIdOf c = b) : (s.setConfig e c).InRecords := by
  refine h.of_endpoint e (fun e' he => ⟨configOf_setConfig_other s he c, rfl⟩) ?_ ?_ ?_
  all_goals rwa [configOf_setConfig_same]

theorem Move.inRecords {s t : State} (hmove : Move s t) (h : s.InRecords) : t.InRecords := by
  cases hmove with
  | plain hpart _ => exact h.of_invPart hpart
  | collect e b hin =>
    obtain ⟨hsending, hsize, -⟩ := h e
    exact h.of_endpoint e (fun e' he => ⟨rfl, by simp [he]⟩) hsending hsize (by simp)
  | configure e c hin hmask hsending hready =>
    exact h.setConfig e c (by simp [hsending]) (by simp [hready]) (by simp [hin])
  | send e c hin hmask hsending hsize hown =>
    refine h.of_endpoint e (fun e' he => ⟨configOf_setConfig_other _ he c, ?_⟩) ?_ ?_ ?_
    · exact (inOwnOf_setInOwn (s.handOff (bufIdOf c)) e e' _).trans (if_neg he)
    all_goals rw [configOf_setConfig_same]
    · simp [hsending]
    · exact fun _ => hsize
    · simp
  | flags e r p n hsending hready =>
    obtain ⟨hr, -, hn, -⟩ := withInFlags_fields (s.configOf e) r p n
    obtain ⟨hbufId, hsizeField⟩ := withInFlags_ids (s.configOf e) r p n
    obtain ⟨-, hsize, hbuf⟩ := h e
    refine h.setConfig e _ ?_ ?_ ?_
    · rwa [hr, hn]
    · rw [hr, hsizeField]
      exact fun hset => hsize (hready hset)
    · rwa [hbufId]
  | _ => exact h

theorem State.ReservedZero.configOf {s : State} (h : s.ReservedZero) (e : EpId) :
    s.configOf e &&& ~~~configInMask = 0#32 := by
  simp only [State.ReservedZero] at h
  simp only [h]

theorem State.ReservedZero.setConfig {s : State} (h : s.ReservedZero) (e : EpId) {c : Word}
    (hc : c &&& ~~~configInMask = 0#32) : (s.setConfig e c).ReservedZero := by
  have hconfig : ∀ e', (if e = e' then c else s.configOf e') &&& ~~~configInMask = 0#32 := fun e' => by
    split
    · exact hc
    · exact h.configOf e'
  simp only [State.ReservedZero] at h ⊢
  simp [h, hconfig]

theorem reserved_withInFlags {c : Word} (h : c &&& ~~~configInMask = 0#32) (r p n : Bool) :
    withInFlags c r p n &&& ~~~configInMask = 0#32 := by
  refine reserved_or (reserved_or (reserved_or (reserved_and h _) ?_) ?_) ?_
  · revert r; decide
  · revert p; decide
  · revert n; decide

theorem Move.reserved {s t : State} (hmove : Move s t) (h : s.ReservedZero) : t.ReservedZero := by
  cases hmove with
  | plain _ hres => exact hres h
  | configure e c hin hmask hsending hready => exact h.setConfig e hmask
  | send e c hin hmask hsending hsize hown =>
    exact State.ReservedZero.setConfig (s := (s.handOff (bufIdOf c)).setInOwn e (some (bufIdOf c))) h e hmask
  | flags e r p n hsending hready => exact h.setConfig e (reserved_withInFlags (h.configOf e) r p n)
  | _ => exact h

theorem Move.inv {s t : State} (hmove : Move s t) (h : s.Inv) : t.Inv where
  params := hmove.params_eq ▸ h.params
  owned := hmove.owned h.owned
  reserved := hmove.reserved h.reserved
  queues := hmove.queues h.queues
  inRecords := hmove.inRecords h.inRecords
  memory := hmove.memory h.memory
  running := hmove.isHalted_eq.trans h.running

theorem closed_inv : Closed State.Inv := closed_of_moves Move.inv

/-- Settles O58: each move keeps every clause of the invariant. -/
theorem stepKeepsInv : Obligations.StepKeepsInv := fun _ _ => closed_inv.step

/-! ### The step of `SW` -/

/-- When `SW` steps next, the step is its turn. -/
theorem step_swTurn {s : State} (h : s.SwTurn) : step s = swTurn s := by
  obtain ⟨hrun, hdue⟩ := h
  rw [step, turn, if_neg (by simp [hrun])]
  split
  case h_1 d ds rest hsched => simp [hsched] at hdue
  case h_2 => rfl

/-- `SW`'s turn runs the instruction its current command decodes to. -/
theorem swTurn_decoded {s : State} {c : Cmd} {i : Instr} (hcmd : s.command = some c)
    (hdecode : decode s.params c = .ok i) :
    swTurn s = andThen (exec i ({ s with sched := s.sched.tail } : State).start) fun t => .next t.retire := by
  simp only [swTurn, hcmd, hdecode]

/-- Settles O52: no `DEV` step is due, and the current command is an instruction. -/
theorem stepRunsDecoded : Obligations.StepRunsDecoded := fun _ _ _ hturn hcmd hdecode =>
  (step_swTurn hturn).trans (swTurn_decoded hcmd hdecode)

end Sys2Proof.Machine

/-! SUPPORT. What the decoder refuses and what it lets pass (R112, R115, R119), the fields of a descriptor read as the
bit fields of R111; and field assembly (R118), where fields that do not overlap are added. -/

namespace Sys2Proof.Machine

/-! ### The fields of a descriptor (R111, R115) -/

theorem bitField_toNat (d : Word) (lo n : Nat) : bitField d.toNat lo n = (d.extractLsb' lo n).toNat := by
  rw [BitVec.extractLsb'_toNat, Nat.shiftRight_eq_div_pow, bitField]

theorem bitField_eq_zero_iff (d : Word) (lo n : Nat) : bitField d.toNat lo n = 0 ↔ d.extractLsb' lo n = 0#n := by
  rw [bitField_toNat, ← BitVec.toNat_inj, BitVec.toNat_ofNat, Nat.zero_mod]

theorem bitField_eq_one_iff (d : Word) (k : Nat) : bitField d.toNat k 1 = 1 ↔ d.getLsbD k = true := by
  rw [BitVec.getLsbD, Nat.testBit_eq_decide_div_mod_eq, decide_eq_true_iff]
  rfl

theorem decode_of_bit31_clear (p : Params) {c : Cmd} (h : c.desc.getLsbD 31 = false) :
    decode p c = decodeTransaction p c.desc.toNat c.data := by
  rw [decode, if_neg (by rw [bitField_eq_one_iff, h]; exact Bool.false_ne_true)]

theorem decode_of_bit31_set (p : Params) {c : Cmd} (h : c.desc.getLsbD 31 = true) :
    decode p c = decodeOperation c.desc.toNat c.x := by
  rw [decode, if_pos ((bitField_eq_one_iff _ _).2 h)]

/-! ### The rows the accesses decode to (R113, R195) -/

theorem unmappedOffset_registerAccess {write : Bool} {k : Nat} (hk : k < 36) {v : Word} {i : Instr}
    (h : registerAccess write k v = some i) : i.unmappedOffset = none := by
  cases write
  · cases (registerAccess_read hk v).symm.trans h
    interval_cases k <;> rfl
  · cases (registerAccess_write hk v).symm.trans h
    interval_cases k <;> rfl

theorem unmappedOffset_unmappedRead {off : Nat} (hlo : 0x090 ≤ off) (hhi : off < 0x800) (h4 : off % 4 = 0) :
    (unmappedRead off).unmappedOffset = some off := by
  rw [unmappedRead]
  split_ifs <;> simp only [Instr.unmappedOffset, Fin.val_ofNat, Option.some.injEq] <;> omega

theorem unmappedOffset_unmappedWrite {off : Nat} (hlo : 0x090 ≤ off) (hhi : off < 0x800) (h4 : off % 4 = 0) (v : Word) :
    (unmappedWrite off v).unmappedOffset = some off := by
  rw [unmappedWrite]
  split_ifs <;> simp only [Instr.unmappedOffset, Fin.val_ofNat, Option.some.injEq] <;> omega

theorem exists_unmappedAccess (write : Bool) {off : Nat} (hlo : 0x090 ≤ off) (hhi : off < 0x800) (h4 : off % 4 = 0)
    (v : Word) : ∃ i, unmappedAccess write off v = .ok i ∧ i.unmappedOffset = some off := by
  rw [unmappedAccess, if_pos ⟨hlo, hhi⟩]
  cases write
  · exact ⟨_, rfl, unmappedOffset_unmappedRead hlo hhi h4⟩
  · exact ⟨_, rfl, unmappedOffset_unmappedWrite hlo hhi h4 v⟩

theorem unmappedAccess_of_no_row (write : Bool) {off : Nat} (h : ¬(0x090 ≤ off ∧ off < 0x800)) (v : Word) :
    unmappedAccess write off v = .error .unmappedOffset := if_neg h

/-! ### The descriptors that pass the checks (R112) -/

/-- What an access at the offset answers: an instruction of a register or a buffer; where it holds neither, the table's
row for the offset, and the refusal where there is none (log 12). -/
def AnswersOffset (p : Params) (off : Nat) (answer : Except DecodeError Instr) : Prop :=
  (p.InRegisters off ∨ p.InBuffers off → ∃ i, answer = .ok i ∧ i.unmappedOffset = none) ∧
  (¬p.InRegisters off → ¬p.InBuffers off → 0x090 ≤ off → off < 0x800 →
    ∃ i, answer = .ok i ∧ i.unmappedOffset = some off) ∧
  (¬p.InRegisters off → ¬p.InBuffers off → ¬(0x090 ≤ off ∧ off < 0x800) → answer = .error .unmappedOffset)

theorem wordAccess_mapped {p : Params} (hp : p.LayoutOk) (write : Bool) {off : Nat} (h4 : off % 4 = 0) (v : Word)
    (h : p.InRegisters off ∨ p.InBuffers off) : ∃ i, wordAccess p write off v = .ok i ∧ i.unmappedOffset = none := by
  rcases h with hreg | hbuf
  · obtain ⟨k, hk, rfl⟩ := exists_register_offset hp hreg h4
    obtain ⟨i, hi⟩ := exists_registerAccess write hk v
    exact ⟨i, wordAccess_register p hp write k hk v i hi, unmappedOffset_registerAccess hk hi⟩
  · obtain ⟨b, k, rfl⟩ := exists_bufOff hp hbuf h4
    refine ⟨_, wordAccess_buffer p write b k v, ?_⟩
    cases write <;> rfl

theorem wordAccess_answersOffset {p : Params} (hp : p.LayoutOk) (write : Bool) {off : Nat} (h4 : off % 4 = 0)
    (v : Word) : AnswersOffset p off (wordAccess p write off v) := by
  refine ⟨wordAccess_mapped hp write h4 v, fun hreg hbuf hlo hhi => ?_, fun hreg hbuf hrow => ?_⟩ <;>
    rw [wordAccess_unmapped p write off v h4 hreg hbuf]
  · exact exists_unmappedAccess write hlo hhi h4 v
  · exact unmappedAccess_of_no_row write hrow v

/-- A sub-word write at or after `BUF_BASE` that passes lies in the buffers or past the window. -/
theorem subWordWrite_answersOffset {p : Params} (hp : p.LayoutOk) (half : Bool) {off : Nat} (hbase : p.bufBase ≤ off)
    (v : Word) : AnswersOffset p off (subWordWrite p half off v) := by
  obtain ⟨-, -, hend, -, -⟩ := hp
  by_cases hbuf : p.InBuffers off
  · refine ⟨fun _ => ⟨_, subWordWrite_of_inBuffers hbuf half v, ?_⟩, fun _ h => absurd hbuf h, fun _ h => absurd hbuf h⟩
    cases half <;> rfl
  · refine ⟨fun h => absurd h ?_, fun _ _ _ hhi => absurd hhi ?_, fun _ _ _ => if_pos hbuf⟩ <;>
      simp only [Params.InRegisters, Params.InBuffers, Config.regBytes, Config.bufMemBytes] at hend hbuf ⊢ <;> omega

theorem decodeTransaction_word (p : Params) (d v : Word) (htop : bitField d.toNat 15 17 = 0)
    (hsz : bitField d.toNat 13 2 = 2) (h4 : bitField d.toNat 0 12 % 4 = 0) :
    ∃ write, decodeTransaction p d.toNat v = wordAccess p write (bitField d.toNat 0 12) v :=
  ⟨decide (bitField d.toNat 12 1 = 1), by simp [decodeTransaction, htop, hsz, h4]⟩

theorem decodeTransaction_subWord (p : Params) (d v : Word) (htop : bitField d.toNat 15 17 = 0)
    (hwrite : bitField d.toNat 12 1 = 1) (hbase : p.bufBase ≤ bitField d.toNat 0 12)
    (hsz : bitField d.toNat 13 2 = 1 ∧ bitField d.toNat 0 12 % 2 = 0 ∨ bitField d.toNat 13 2 = 0) :
    ∃ half, decodeTransaction p d.toNat v = subWordWrite p half (bitField d.toNat 0 12) v := by
  rcases hsz with ⟨hsz, h2⟩ | hsz
  · exact ⟨true, by simp [decodeTransaction, htop, hwrite, hbase, hsz, h2]⟩
  · exact ⟨false, by simp [decodeTransaction, htop, hwrite, hbase, hsz]⟩

/-- Settles O3: the refusals are the branches of the decoder in their order, and a descriptor that passes them is a word
access or a sub-word write, whose offset alone says what it answers. -/
theorem transactionDescriptorChecks : Obligations.TransactionDescriptorChecks := by
  intro p c hp h31
  simp only [decode_of_bit31_clear p h31, ne_eq, ← bitField_toNat, ← bitField_eq_zero_iff, ← bitField_eq_one_iff]
  refine ⟨fun htop => ?_, fun htop hsz => ?_, fun htop hsz h4 => ?_, fun htop hsz hsub => ?_,
    fun htop hsz hwrite hbase h2 => ?_, fun htop hpass => ?_⟩
  · simp [decodeTransaction, htop]
  · simp [decodeTransaction, htop, hsz]
  · simp [decodeTransaction, htop, hsz, h4]
  · have hne3 : bitField c.desc.toNat 13 2 ≠ 3 := by omega
    have hne2 : bitField c.desc.toNat 13 2 ≠ 2 := by omega
    simp only [decodeTransaction, htop, ne_eq, not_true_eq_false, hne3, hne2, false_and, if_false, hsz, hsub,
      not_false_eq_true, and_self, if_true]
  · simp [decodeTransaction, htop, hsz, hwrite, hbase, h2]
  · change AnswersOffset p _ _
    rcases hpass with ⟨hsz, h4⟩ | ⟨hsz, hwrite, hbase, h2⟩ | ⟨hsz, hwrite, hbase⟩
    · obtain ⟨write, hd⟩ := decodeTransaction_word p c.desc c.data htop hsz h4
      exact hd ▸ wordAccess_answersOffset hp write h4 c.data
    · obtain ⟨half, hd⟩ := decodeTransaction_subWord p c.desc c.data htop hwrite hbase (.inl ⟨hsz, h2⟩)
      exact hd ▸ subWordWrite_answersOffset hp half hbase c.data
    · obtain ⟨half, hd⟩ := decodeTransaction_subWord p c.desc c.data htop hwrite hbase (.inr hsz)
      exact hd ▸ subWordWrite_answersOffset hp half hbase c.data

/-- Settles O4: the reserved bits are the decoder's one check, and each code's operation is `operationOf`'s. -/
theorem operationDescriptors : Obligations.OperationDescriptors := by
  refine ⟨fun p c h31 hres => ?_, fun p v x => ?_⟩
  · rw [decode_of_bit31_set p h31, decodeOperation,
      if_pos (by simpa only [ne_eq, bitField_eq_zero_iff] using hres)]
  · have code := fun n hn => decode_operation p n hn v x
    exact ⟨code 0 (by decide), code 1 (by decide), code 2 (by decide), code 3 (by decide), code 4 (by decide),
      code 5 (by decide), code 6 (by decide), code 7 (by decide), code 8 (by decide), code 9 (by decide),
      code 10 (by decide), code 11 (by decide), code 12 (by decide), code 13 (by decide), code 14 (by decide),
      code 15 (by decide)⟩

/-- Settles O5: the words that are instructions by the round trip, the refused ones by running the decoder. -/
theorem sampleWords : Obligations.SampleWords :=
  ⟨decodeEncode.1 .rdUsbstat, decodeEncode.1 (.wrConfigin1 0x303#32), decodeEncode.1 (.rdBuf 31 15),
    decodeEncode.1 (.wrBufB 0 1 0xAA#32), decodeEncode.1 (.wrBufH 0 1 0xBEEF#32), decodeEncode.1 (.rdUnmapped400 255),
    decodeEncode.1 (.recvPacket 0x20000100), rfl, rfl, rfl, rfl, rfl, rfl, rfl, rfl⟩

/-! ### Field assembly (R118) -/

/-- A field put above the bits a word has is added to it. -/
theorem toNat_or_shiftLeft {lo hi : Word} {n a b : Nat} (ha : lo.toNat = a) (hb : hi.toNat = b) (hlo : a < 2 ^ n)
    (hhi : b * 2 ^ n < 2 ^ 32) : (lo ||| hi <<< n).toNat = a + b * 2 ^ n := by
  rw [BitVec.toNat_or, BitVec.toNat_shiftLeft, ha, hb, Nat.shiftLeft_eq, Nat.mod_eq_of_lt hhi, ← Nat.shiftLeft_eq,
    Nat.or_comm, ← Nat.shiftLeft_add_eq_or_of_lt hlo, Nat.add_comm]

theorem flag_toNat (b : Bool) : (flag b).toNat = b.toNat := by cases b <;> rfl

theorem configInWord_toNat {buf size : Nat} (r : Bool) (hbuf : buf < 32) (hsize : size < 128) :
    (configInWord buf size r).toNat = buf + size * 2 ^ 8 + r.toNat * 2 ^ 31 := by
  have hr := r.toNat_lt
  have hb : (BitVec.ofNat 32 (buf % 32)).toNat = buf := by rw [BitVec.toNat_ofNat]; omega
  have hs : (BitVec.ofNat 32 (size % 128)).toNat = size := by rw [BitVec.toNat_ofNat]; omega
  have hids := toNat_or_shiftLeft (n := 8) hb hs (by omega) (by omega)
  exact toNat_or_shiftLeft hids (flag_toNat r) (by omega) (by omega)

theorem rxWord_toNat (e : RxEntry) : (rxWord e).toNat =
    e.buf.val + e.size.toNat * 2 ^ 8 + e.setup.toNat * 2 ^ 19 + e.ep.toNat * 2 ^ 20 := by
  have hsize := e.size.isLt
  have hsetup := e.setup.toNat_lt
  have hep := e.ep.isLt
  have hb : (BitVec.ofNat 32 e.buf.val).toNat = e.buf.val := by rw [BitVec.toNat_ofNat]; omega
  have hs : (e.size.setWidth 32).toNat = e.size.toNat := by rw [BitVec.toNat_setWidth]; omega
  have hp : (e.ep.setWidth 32).toNat = e.ep.toNat := by rw [BitVec.toNat_setWidth]; omega
  have hids := toNat_or_shiftLeft (n := 8) hb hs (by omega) (by omega)
  have hflagged := toNat_or_shiftLeft (n := 19) hids (flag_toNat e.setup) (by omega) (by omega)
  exact toNat_or_shiftLeft hflagged hp (by omega) (by omega)

theorem bufIdOf_val (w : Word) : (bufIdOf w).val = (w.extractLsb' 0 5).toNat := by
  rw [BitVec.extractLsb'_toNat, Nat.shiftRight_zero]
  rfl

/-- `rx_decode` reads back what RXFIFO's layout writes (R33). -/
theorem rxDecode_rxWord (e : RxEntry) : rxDecode (rxWord e) = e := by
  have hw := rxWord_toNat e
  have hsize := e.size.isLt
  have hsetup := e.setup.toNat_lt
  have hep := e.ep.isLt
  have hbuf' : bufIdOf (rxWord e) = e.buf := Fin.ext (by rw [bufIdOf_val, ← bitField_toNat, bitField]; omega)
  have hsize' : sizeField (rxWord e) = e.size :=
    BitVec.eq_of_toNat_eq (by rw [sizeField, ← bitField_toNat, bitField]; omega)
  have hsetup' : (rxWord e).getLsbD 19 = e.setup := by
    have hbit : bitField (rxWord e).toNat 19 1 = e.setup.toNat := by rw [bitField]; omega
    rw [Bool.eq_iff_iff, ← bitField_eq_one_iff, hbit, Bool.toNat_eq_one]
  have hep' : (rxWord e).extractLsb' 20 4 = e.ep := BitVec.eq_of_toNat_eq (by rw [← bitField_toNat, bitField]; omega)
  rw [rxDecode, hbuf', hsize', hsetup', hep']

theorem usbctrlAddr_address (v : Word) {a : Nat} (ha : a < 128) :
    ((usbctrlAddr v a).extractLsb' 16 7).toNat = a := by
  have hmask : (~~~addressMask).extractLsb' 16 7 = 0#7 := rfl
  rw [usbctrlAddr, BitVec.extractLsb'_or, BitVec.extractLsb'_and, hmask, BitVec.and_zero, BitVec.zero_or,
    BitVec.extractLsb'_toNat, BitVec.toNat_shiftLeft, BitVec.toNat_ofNat, Nat.shiftLeft_eq, Nat.shiftRight_eq_div_pow]
  omega

/-- A device address lies in its field. -/
theorem address_and_not_addressMask : ∀ a : Fin 128, BitVec.ofNat 32 a.val <<< 16 &&& ~~~addressMask = 0#32 := by decide

theorem usbctrlAddr_rest (v : Word) (a : Nat) : usbctrlAddr v a &&& ~~~addressMask = v &&& ~~~addressMask := by
  rw [usbctrlAddr, BitVec.and_or_distrib_right, BitVec.and_assoc, BitVec.and_self,
    address_and_not_addressMask ⟨a % 128, Nat.mod_lt _ (by decide)⟩, BitVec.or_zero]

theorem availWord_toNat (b : Nat) : (availWord b).toNat = b % 32 := by
  rw [availWord, BitVec.toNat_ofNat]
  omega

/-- Settles O6: the fields of a word do not overlap, so its value is the sum of theirs. -/
theorem fieldAssembly : Obligations.FieldAssembly := by
  refine ⟨fun buf size r hbuf hsize => ?_, fun w => ⟨bufIdOf_val w, rfl, rfl, rfl⟩, rxDecode_rxWord,
    fun v a ha => ⟨usbctrlAddr_address v ha, usbctrlAddr_rest v a⟩, availWord_toNat, fun e i he => getLsbD_bit e i he,
    fun _ _ _ => rfl⟩
  rw [configInWord_toNat r hbuf hsize]
  cases r <;> simp <;> omega

end Sys2Proof.Machine

/-! SUPPORT. What can refuse (R116, R345): an operation refuses a bad operand before anything else, and past that check
only a transaction refuses. -/

namespace Sys2Proof.Machine

/-- The refusals of the transactions, REFUSED set in the stopped state: an unmapped offset (R195), a read or a write the
register does not take (R156, R157), an unknown field (R148), a busy endpoint (R176). -/
def Refusal.OfTransaction : Refusal → Prop
  | .unmappedOffset t | .writeToReadOnly t | .readOfWriteOnly t | .unknownFieldWrite t | .inTransferBusy t =>
    t.refused = true
  | _ => False

/-- The outcome is no refusal but one of a transaction. -/
def TransactionRefusals {α : Type} (o : Host.Outcome α Fault Refusal) : Prop := ∀ r, o = .refused r → r.OfTransaction

namespace TransactionRefusals

variable {α β : Type}

theorem next (a : α) : TransactionRefusals (.next a) := fun _ h => by cases h

theorem raise (r : FaultReason) (s : State) :
    TransactionRefusals (Machine.raise r s : Host.Outcome α Fault Refusal) := fun _ h => by cases h

theorem stuck (s : State) : TransactionRefusals (Machine.stuck s : Host.Outcome α Fault Refusal) := fun _ h => by cases h

theorem refuse {reason : State → Refusal} {s : State} (h : (reason s.asRefused).OfTransaction) :
    TransactionRefusals (Machine.refuse reason s : Host.Outcome α Fault Refusal) := by
  intro r hr
  cases hr
  exact h

theorem andThen {o : Host.Outcome α Fault Refusal} {f : α → Host.Outcome β Fault Refusal} (ho : TransactionRefusals o)
    (hf : ∀ a, TransactionRefusals (f a)) : TransactionRefusals (Machine.andThen o f) := by
  intro r hr
  rcases andThen_eq_refused.1 hr with h | ⟨a, -, h⟩
  · exact ho r h
  · exact hf a r h

theorem ite {c : Prop} [Decidable c] {o o' : Host.Outcome α Fault Refusal} (ho : TransactionRefusals o)
    (ho' : TransactionRefusals o') : TransactionRefusals (if c then o else o') := by
  split
  · exact ho
  · exact ho'

/-- The check of operands that fit refuses nothing (R116). -/
theorem checked {fits : Bool} {o : Host.Outcome α Fault Refusal} {s : State} (hfits : fits = true)
    (ho : TransactionRefusals o) : TransactionRefusals (if fits then o else Machine.refuse .badOperand s) := by
  rwa [if_pos hfits]

/-! ### The transactions (R141 to R192) -/

theorem regRead (r : Reg) (s : State) : TransactionRefusals (Machine.regRead r s) := by
  cases r with
  | avOutBuffer | avSetupBuffer => exact refuse rfl
  | rxFifo =>
    rw [Machine.regRead, readRxFifo]
    split <;> exact next _
  | _ => exact next _

theorem inHandOff (e : EpId) (v : Word) (s : State) : TransactionRefusals (Machine.inHandOff e v s) :=
  ite (raise _ _) (ite (raise _ _) (next _))

theorem regWrite (r : Reg) (v : Word) (s : State) : TransactionRefusals (Machine.regWrite r v s) := by
  cases r with
  | usbstat | rxFifo | outDataToggle | inDataToggle | phyPinsSense => exact refuse rfl
  | alertTest | usbctrl | setNakOut | phyPinsDrive | phyConfig => exact ite (refuse rfl) (next _)
  | avOutBuffer | avSetupBuffer => exact ite (raise _ _) (ite (raise _ _) (next _))
  | configIn e =>
    exact ite (refuse rfl) (ite (raise _ _) (ite (andThen (inHandOff e v s) fun _ => next _) (next _)))
  | _ => exact next _

theorem bufRead (b : BufId) (k : WordIx) (s : State) : TransactionRefusals (Machine.bufRead b k s) :=
  ite (raise _ _) (next _)

theorem bufWrite (b : BufId) (k : WordIx) (v : Word) (s : State) : TransactionRefusals (Machine.bufWrite b k v s) :=
  ite (raise _ _) (next _)

theorem readCommand {rule : State → Host.Outcome (Word × State) Fault Refusal} {s : State}
    (h : TransactionRefusals (rule s)) : TransactionRefusals (Machine.readCommand rule s) := andThen h fun _ => next _

theorem writeCommand {rule : State → Host.Outcome State Fault Refusal} {s : State} (h : TransactionRefusals (rule s)) :
    TransactionRefusals (Machine.writeCommand rule s) := andThen h fun _ => next _

theorem registerRead (r : Reg) (s : State) : TransactionRefusals (Machine.readCommand (Machine.regRead r) s) :=
  readCommand (regRead r s)

theorem registerWrite (r : Reg) (v : Word) (s : State) :
    TransactionRefusals (Machine.writeCommand (Machine.regWrite r v) s) := writeCommand (regWrite r v s)

theorem devRead (r : Reg) (s : State) : TransactionRefusals (Machine.devRead r s) :=
  andThen (regRead r _) fun _ => next _

theorem devWrite (r : Reg) (v : Word) (s : State) : TransactionRefusals (Machine.devWrite r v s) :=
  andThen (regWrite r v _) fun _ => next _

theorem modify (r : Reg) (f : Word → Word) (s : State) : TransactionRefusals (Machine.modify r f s) :=
  andThen (devRead r s) fun _ => devWrite r _ _

theorem busBufRead (b : BufId) (k : WordIx) (s : State) :
    TransactionRefusals (busRead (Machine.bufRead b k) s) := andThen (bufRead b k _) fun _ => next _

theorem busBufWrite (b : BufId) (k : WordIx) (v : Word) (s : State) :
    TransactionRefusals (busWrite (Machine.bufWrite b k v) s) := andThen (bufWrite b k v _) fun _ => next _

/-! ### The loops of the operations (R200, R290, R291) -/

theorem supplyScan (ids : List Nat) (m : Word) (s : State) : TransactionRefusals (Machine.supplyScan ids m s) := by
  induction ids generalizing m s with
  | nil => exact next _
  | cons i ids ih =>
    exact ite (andThen (devRead _ _) fun p => ite
      (andThen (devRead _ _) fun q => ite (next _) (andThen (devWrite _ _ _) fun _ => ih _ _))
      (andThen (devWrite _ _ _) fun _ => ih _ _)) (ih _ _)

theorem putWords (b : BufId) (data : Nat) (ks : List WordIx) (s : State) :
    TransactionRefusals (Machine.putWords b data ks s) := by
  induction ks generalizing s with
  | nil => exact next _
  | cons k ks ih => exact andThen (ite (next _) (stuck _)) fun w => andThen (busBufWrite b k w s) ih

theorem toDevice (buf data n : Nat) (s : State) : TransactionRefusals (Machine.toDevice buf data n s) :=
  ite (raise _ _) (ite (raise _ _) (andThen (putWords _ _ _ s) fun _ =>
    ite (next _) (andThen (ite (next _) (stuck _)) fun _ => busBufWrite _ _ _ _)))

theorem getWords (b : BufId) (data : Nat) (ks : List WordIx) (s : State) :
    TransactionRefusals (Machine.getWords b data ks s) := by
  induction ks generalizing s with
  | nil => exact next _
  | cons k ks ih => exact andThen (busBufRead b k s) fun _ => andThen (ite (next _) (stuck _)) ih

theorem memWriteBytes (addr : Nat) (bytes : List Byte) (s : State) :
    TransactionRefusals (Machine.memWriteBytes addr bytes s) := by
  induction bytes generalizing addr s with
  | nil => exact next _
  | cons v vs ih => exact ite (ih _ _) (stuck _)

theorem fromDevice (buf data n : Nat) (s : State) : TransactionRefusals (Machine.fromDevice buf data n s) :=
  ite (raise _ _) (ite (raise _ _) (andThen (getWords _ _ _ s) fun _ =>
    ite (next _) (andThen (busBufRead _ _ _) fun _ => memWriteBytes _ _ _)))

/-- `packet_collected` (R262). -/
theorem packetCollected (s : State) : TransactionRefusals (execPacketCollected s) := by
  refine andThen (devRead _ s) fun p => ?_
  split
  · exact next _
  · exact andThen (devWrite _ _ _) fun _ => andThen (devRead _ _) fun _ => next _

end TransactionRefusals

/-! ### The instructions -/

@[simp] theorem fitsU8_iff (n : Nat) : fitsU8 n = true ↔ Fits.u8 n := decide_eq_true_iff
@[simp] theorem fitsBool_iff (n : Nat) : fitsBool n = true ↔ Fits.bool n := decide_eq_true_iff
@[simp] theorem fitsU32_iff (n : Nat) : fitsU32 n = true ↔ Fits.u32 n := decide_eq_true_iff

/-- An instruction with an operand that does not fit is refused for it, whatever the state (R116). -/
theorem exec_of_not_wellFormed {i : Instr} (h : i.wellFormed = false) (s : State) : exec i s = refuse .badOperand s := by
  cases i with
  | configureOutEndpoint | configureInEndpoint | setEpStalling | setDeviceAddress | supplyBuffers | sendPacket
  | recvPacket | transferToDevice | transferFromDevice | interruptEnable | interruptDisable =>
    exact if_neg (by simpa [Instr.wellFormed, and_assoc] using h)
  | _ => cases h

/-- Past the check of its operands an instruction is refused by one of its transactions, or not at all. -/
theorem exec_transactionRefusals {i : Instr} (h : i.wellFormed = true) (s : State) :
    TransactionRefusals (exec i s) := by
  cases i with
  | rdIntrState | rdIntrEnable | rdIntrTest | rdAlertTest | rdUsbctrl | rdEpOutEnable | rdEpInEnable | rdUsbstat
  | rdAvoutbuffer | rdAvsetupbuffer | rdRxfifo | rdRxenableSetup | rdRxenableOut | rdSetNakOut | rdInSent | rdOutStall
  | rdInStall | rdConfigin0 | rdConfigin1 | rdConfigin2 | rdConfigin3 | rdConfigin4 | rdConfigin5 | rdConfigin6
  | rdConfigin7 | rdConfigin8 | rdConfigin9 | rdConfigin10 | rdConfigin11 | rdOutIso | rdInIso | rdOutDataToggle
  | rdInDataToggle | rdPhyPinsSense | rdPhyPinsDrive | rdPhyConfig =>
    rw [exec]
    exact .registerRead _ s
  | rdBuf b k => exact .readCommand (.bufRead b k s)
  | wrBuf b k v => exact .writeCommand (.bufWrite b k v s)
  | wrBufB | wrBufH => exact .writeCommand (.next s)
  | rdUnmapped090 | wrUnmapped090 | rdUnmapped0A0 | wrUnmapped0A0 | rdUnmapped0C0 | wrUnmapped0C0
  | rdUnmapped100 | wrUnmapped100 | rdUnmapped200 | wrUnmapped200 | rdUnmapped400 | wrUnmapped400 => exact .refuse rfl
  | init =>
    rw [exec, execInit]
    exact .andThen (.devWrite _ _ s) fun _ => .next _
  | connect | disconnect => exact .andThen (.modify _ _ s) fun _ => .next _
  | connected =>
    rw [exec, execConnected]
    exact .andThen (.devRead _ s) fun _ => .next _
  | configureOutEndpoint =>
    exact .checked (by simpa [Instr.wellFormed, and_assoc] using h) (.ite (.next _)
      (.andThen (.modify _ _ _) fun _ => .andThen (.modify _ _ _) fun _ => .andThen (.modify _ _ _) fun _ =>
        .andThen (.modify _ _ _) fun _ => .next _))
  | configureInEndpoint | setEpStalling =>
    exact .checked (by simpa [Instr.wellFormed, and_assoc] using h) (.ite (.next _)
      (.andThen (.modify _ _ _) fun _ => .andThen (.modify _ _ _) fun _ => .next _))
  | setDeviceAddress =>
    exact .checked (by simpa [Instr.wellFormed] using h) (.ite (.next _) (.andThen (.modify _ _ _) fun _ => .next _))
  | supplyBuffers =>
    exact .checked (by simpa [Instr.wellFormed] using h) (.andThen (.supplyScan _ _ _) fun _ => .next _)
  | sendPacket =>
    exact .checked (by simpa [Instr.wellFormed, and_assoc] using h) (.ite (.raise _ _)
      (.andThen (.ite (.toDevice _ _ _ _) (.next _)) fun _ => .andThen (.devWrite _ _ _) fun _ =>
        .andThen (.devRead _ _) fun _ => .andThen (.devWrite _ _ _) fun _ => .next _))
  | packetCollected => exact .packetCollected s
  | recvPacket =>
    exact .checked (by simpa [Instr.wellFormed] using h) (.andThen (.devRead _ _) fun _ => .ite (.next _)
      (.andThen (.devRead _ _) fun _ => .ite (.raise _ _)
        (.andThen (.ite (.fromDevice _ _ _ _) (.next _)) fun _ => .next _)))
  | transferToDevice =>
    exact .checked (by simpa [Instr.wellFormed, and_assoc] using h) (.andThen (.toDevice _ _ _ _) fun _ => .next _)
  | transferFromDevice =>
    exact .checked (by simpa [Instr.wellFormed, and_assoc] using h) (.andThen (.fromDevice _ _ _ _) fun _ => .next _)
  | interruptEnable | interruptDisable =>
    exact .checked (by simpa [Instr.wellFormed] using h) (.andThen (.modify _ _ _) fun _ => .next _)
  | _ =>
    rw [exec]
    exact .registerWrite _ _ s

/-- Settles O33: an operand that does not fit is refused first, and past that check no refusal is a bad operand's. -/
theorem badOperands : Obligations.BadOperands := by
  intro i s
  cases h : i.wellFormed with
  | false => exact iff_of_true rfl (exec_of_not_wellFormed h s)
  | true => exact iff_of_false nofun fun hr => exec_transactionRefusals h s _ hr

end Sys2Proof.Machine

/-! SUPPORT. The steps that run no instruction: one equation for each kind (R112, R140, R325, R396). -/

namespace Sys2Proof.Machine

/-- A command that is no instruction is refused by the decoder's reason, its interleaving point past (R112, R119). -/
theorem step_undecoded {s : State} {c : Cmd} {e : DecodeError} (hturn : s.SwTurn) (hcmd : s.prog[s.pc.op]? = some c)
    (hdecode : decode s.params c = .error e) : step s = refuseCommand e { s with sched := s.sched.tail } := by
  rw [step_swTurn hturn]
  simp only [swTurn, State.command, hcmd, hdecode]

/-- Past the end of the list the run of `SW` is over (R21, R396). -/
theorem step_runEnded {s : State} (hturn : s.SwTurn) (hend : s.prog.length ≤ s.pc.op) :
    step s = .fault (.runEnded s) := by
  rw [step_swTurn hturn]
  simp only [swTurn, State.command, List.getElem?_eq_none hend]

/-- The `DEV` step at the head of the schedule is taken (R325). -/
theorem step_dev {s : State} {d : DevStep} {ds : List DevStep} {rest : List (List DevStep)} (hrun : s.isHalted = false)
    (hsched : s.sched = (d :: ds) :: rest) : step s = .next (devTake { s with sched := ds :: rest } d) := by
  rw [step, turn, if_neg (by simp [hrun])]
  simp only [hsched]

theorem isHalted_iff (s : State) : s.isHalted = true ↔ s.faults ≠ [] ∨ s.refused = true := by
  rw [State.isHalted, Bool.or_eq_true, Bool.not_eq_true', List.isEmpty_eq_false_iff, or_comm]

theorem step_halted {s : State} (h : s.isHalted = true) : step s = .fault (.halted s) := by rw [step, turn, if_pos h]

/-- Settles O53: one lemma for each kind of step that runs no instruction. -/
theorem stepOtherwise : Obligations.StepOtherwise :=
  ⟨fun _ _ hturn hcmd => ⟨step_undecoded hturn hcmd, step_undecoded hturn hcmd, step_undecoded hturn hcmd,
      step_undecoded hturn hcmd⟩,
    fun _ _ _ _ => step_dev, fun s h => step_halted ((isHalted_iff s).2 h), fun _ => step_runEnded⟩

end Sys2Proof.Machine

/-! SUPPORT. The register transactions as commands: a command is its rule's one transaction, so it completes, faults or
is refused as the rule does (R121, R140), and the k-th register of R113 is what the k-th read and the k-th write access;
and the registers whose rules answer, store or refuse at once (R141 to R190). -/

namespace Sys2Proof.Machine

/-! ### A command of one transaction (R121, R140) -/

section
variable {read : State → Host.Outcome (Word × State) Fault Refusal} {write : State → Host.Outcome State Fault Refusal}
  {s t : State} {v : Word} {reason : State → Refusal}

theorem readCommand_next (h : read s = .next (v, t)) : readCommand read s = .next (t.done 1 [v]) := by
  rw [readCommand, h]
  rfl

theorem readCommand_raise (r : FaultReason) (h : read s = raise r t) :
    readCommand read s = .fault (Fault.ofReason r (t.asFaulted r)) := by
  rw [readCommand, h]
  rfl

theorem readCommand_refuse (h : read s = refuse reason t) : readCommand read s = .refused (reason t.asRefused) := by
  rw [readCommand, h]
  rfl

theorem writeCommand_next (h : write s = .next t) : writeCommand write s = .next (t.done 1 []) := by
  rw [writeCommand, h]
  rfl

theorem writeCommand_raise (r : FaultReason) (h : write s = raise r t) :
    writeCommand write s = .fault (Fault.ofReason r (t.asFaulted r)) := by
  rw [writeCommand, h]
  rfl

theorem writeCommand_refuse (h : write s = refuse reason t) : writeCommand write s = .refused (reason t.asRefused) := by
  rw [writeCommand, h]
  rfl

end

/-! ### The registers in the order of R113 -/

/-- The 36 registers, in the order of their offsets (R113). -/
def registers : List Reg := [
    .intrState, .intrEnable, .intrTest, .alertTest, .usbctrl,
    .epOutEnable, .epInEnable, .usbstat, .avOutBuffer, .avSetupBuffer,
    .rxFifo, .rxEnableSetup, .rxEnableOut, .setNakOut, .inSent,
    .outStall, .inStall, .configIn 0, .configIn 1, .configIn 2,
    .configIn 3, .configIn 4, .configIn 5, .configIn 6, .configIn 7,
    .configIn 8, .configIn 9, .configIn 10, .configIn 11, .outIso,
    .inIso, .outDataToggle, .inDataToggle, .phyPinsSense, .phyPinsDrive,
    .phyConfig]

section
variable (k : Nat) (hk : k < 36)
include hk

theorem exec_registerRead (s : State) : exec registerReads[k] s = readCommand (regRead registers[k]) s := by
  interval_cases k <;> rfl

theorem exec_registerWrite (v : Word) (s : State) :
    exec (registerWrites[k] v) s = writeCommand (regWrite registers[k] v) s := by
  interval_cases k <;> rfl

theorem registerCommand_registerReads : RegisterCommand (BitVec.ofNat 32 (0x4000 + 4 * k)) fun _ => registerReads[k] :=
  registerCommand_read k hk _ (List.getElem?_eq_getElem hk)

theorem registerCommand_registerWrites : RegisterCommand (BitVec.ofNat 32 (0x5000 + 4 * k)) registerWrites[k] :=
  registerCommand_write k hk _ (List.getElem?_eq_getElem (l := registerWrites) hk)

end

/-- The read of a register whose rule answers a value and changes nothing, as most rules do by definition. -/
theorem readsAs_register (k : Nat) {value : State → Word} (hk : k < 36 := by decide)
    (h : ∀ s, regRead registers[k] s = .next (value s, s) := by exact fun _ => rfl) :
    ReadsAs (BitVec.ofNat 32 (0x4000 + 4 * k)) registerReads[k] value :=
  ⟨registerCommand_registerReads k hk, fun s => (exec_registerRead k hk s).trans (readCommand_next (h s))⟩

/-- The write of a register whose rule accepts every data word, as most rules do by definition. -/
theorem writesAs_register (k : Nat) {effect : Word → State → State} (hk : k < 36 := by decide)
    (h : ∀ v s, regWrite registers[k] v s = .next (effect v s) := by exact fun _ _ => rfl) :
    WritesAs (BitVec.ofNat 32 (0x5000 + 4 * k)) registerWrites[k] effect :=
  ⟨registerCommand_registerWrites k hk, fun v s => (exec_registerWrite k hk v s).trans (writeCommand_next (h v s))⟩

/-! ### The interrupt registers (R141 to R146) -/

/-- Settles O7: each rule answers its register's implemented bits. -/
theorem interruptRegisterReads : Obligations.InterruptRegisterReads :=
  ⟨readsAs_register 0, readsAs_register 1, readsAs_register 2⟩

theorem getLsbD_intrMask (i : Nat) : intrMask.getLsbD i = decide (i < 18) := by
  have hmask : intrMask = (BitVec.allOnes 18).setWidth 32 := by decide
  rw [hmask, BitVec.getLsbD_setWidth, BitVec.getLsbD_allOnes, ← Bool.decide_and, decide_eq_decide]
  omega

theorem and_intrMask_ne_zero_iff (w : Word) : w &&& intrMask ≠ 0#32 ↔ ∃ i < 18, w.getLsbD i = true := by
  constructor
  · intro h
    by_contra! hclear
    refine h (BitVec.eq_of_getLsbD_eq fun i _ => ?_)
    by_cases hi : i < 18
    · simp [hclear i hi]
    · simp [getLsbD_intrMask, hi]
  · rintro ⟨i, hi, hset⟩ h
    have hbit := congrArg (·.getLsbD i) h
    simp [getLsbD_intrMask, hi, hset] at hbit

/-- The line is up when an implemented bit is pending and enabled (R56). -/
theorem irq_iff (s : State) :
    s.irq = true ↔ ∃ i < 18, s.intrState.getLsbD i = true ∧ s.intrEnable.getLsbD i = true := by
  rw [State.irq, decide_eq_true_iff, and_intrMask_ne_zero_iff]
  simp only [BitVec.getLsbD_and, Bool.and_eq_true]

/-- Settles O8: each rule accepts every data word; the line follows what WR INTR_ENABLE stores. -/
theorem interruptRegisterWrites : Obligations.InterruptRegisterWrites := by
  have henable := writesAs_register 1 (effect := fun v s => { s with intrEnable := v &&& intrMask })
  refine ⟨writesAs_register 0, henable, writesAs_register 2, fun v s t h => ?_⟩
  cases (henable.2 v s).symm.trans h
  rw [irq_iff]
  refine exists_congr fun i => and_congr_right fun hi => ?_
  simp [State.done, getLsbD_intrMask, hi]

/-! ### The per-endpoint bitmaps and IN_SENT (R151 to R184, R170) -/

/-- Settles O9: each rule answers its register's bits 11:0. -/
theorem endpointBitmapReads : Obligations.EndpointBitmapReads :=
  ⟨readsAs_register 5, readsAs_register 6, readsAs_register 11, readsAs_register 12, readsAs_register 15,
    readsAs_register 16, readsAs_register 29, readsAs_register 30, readsAs_register 31, readsAs_register 32⟩

/-- Settles O10: each rule stores bits 11:0 of every data word. -/
theorem endpointBitmapWrites : Obligations.EndpointBitmapWrites :=
  ⟨writesAs_register 5, writesAs_register 6, writesAs_register 11, writesAs_register 12, writesAs_register 15,
    writesAs_register 16, writesAs_register 29, writesAs_register 30⟩

/-- Settles O16: the rule clears the bits written 1, for every data word. -/
theorem inSentWrite : Obligations.InSentWrite := writesAs_register 14

/-! ### CONFIGIN (R175) -/

/-- Settles O17: each rule answers its register's implemented bits. -/
theorem configInReads : Obligations.ConfigInReads :=
  ⟨readsAs_register 17, readsAs_register 18, readsAs_register 19, readsAs_register 20, readsAs_register 21,
    readsAs_register 22, readsAs_register 23, readsAs_register 24, readsAs_register 25, readsAs_register 26,
    readsAs_register 27, readsAs_register 28⟩

/-! ### USBCTRL and USBSTAT (R149, R150, R155) -/

/-- Settles O11: bit 1 of the data word, Resume, decides the write. -/
theorem usbctrlAccess : Obligations.UsbctrlAccess :=
  ⟨readsAs_register 4, registerCommand_registerWrites 4 (by decide), fun _ _ =>
    ⟨fun hresume => writeCommand_refuse (if_pos hresume),
      fun hresume => writeCommand_next (if_neg (ne_true_of_eq_false hresume))⟩⟩

theorem usbstat_flags_lt (s : State) : s.hostLost.toNat < 2 ∧ s.sense.toNat < 2 ∧ s.avOutFull.toNat < 2 ∧
    s.avSetupFull.toNat < 2 ∧ s.rxEmpty.toNat < 2 :=
  ⟨Bool.toNat_lt _, Bool.toNat_lt _, Bool.toNat_lt _, Bool.toNat_lt _, Bool.toNat_lt _⟩

/-- Legal parameters bound the depths to their fields of USBSTAT (R8, R30). -/
theorem queue_lengths_lt {s : State} (hp : s.params.Ok) (hq : s.QueuesInRange) :
    s.avOut.length < 16 ∧ s.avSetup.length < 8 ∧ s.rx.length < 16 := by
  obtain ⟨-, ⟨-, hout⟩, ⟨-, hsetup⟩, ⟨-, hrx⟩, -, -⟩ := hp
  obtain ⟨hout', hsetup', hrx', -⟩ := hq
  omega

/-- USBSTAT's value is the sum of its fields where each depth fits its place (R30, R155). -/
theorem usbstat_toNat {s : State} (h : s.avOut.length < 16 ∧ s.avSetup.length < 8 ∧ s.rx.length < 16) :
    s.usbstat.toNat = s.frame.toNat + s.hostLost.toNat * 2 ^ 11 + s.linkState.toNat * 2 ^ 12 + s.sense.toNat * 2 ^ 15
      + s.avOut.length * 2 ^ 16 + s.avSetup.length * 2 ^ 20 + s.avOutFull.toNat * 2 ^ 23 + s.rx.length * 2 ^ 24
      + s.avSetupFull.toNat * 2 ^ 30 + s.rxEmpty.toNat * 2 ^ 31 := by
  have hflags := usbstat_flags_lt s
  have hframe : (s.frame.setWidth 32).toNat = s.frame.toNat := by rw [BitVec.toNat_setWidth]; omega
  have hlink : (s.linkState.setWidth 32).toNat = s.linkState.toNat := by rw [BitVec.toNat_setWidth]; omega
  have hdepth {n : Nat} (hn : n < 16) : (BitVec.ofNat 32 n).toNat = n := by rw [BitVec.toNat_ofNat]; omega
  have h11 := toNat_or_shiftLeft (n := 11) hframe (flag_toNat s.hostLost) (by omega) (by omega)
  have h12 := toNat_or_shiftLeft (n := 12) h11 hlink (by omega) (by omega)
  have h15 := toNat_or_shiftLeft (n := 15) h12 (flag_toNat s.sense) (by omega) (by omega)
  have h16 := toNat_or_shiftLeft (n := 16) h15 (hdepth h.1) (by omega) (by omega)
  have h20 := toNat_or_shiftLeft (n := 20) h16 (hdepth (n := s.avSetup.length) (by omega)) (by omega) (by omega)
  have h23 := toNat_or_shiftLeft (n := 23) h20 (flag_toNat s.avOutFull) (by omega) (by omega)
  have h24 := toNat_or_shiftLeft (n := 24) h23 (hdepth (n := s.rx.length) (by omega)) (by omega) (by omega)
  have h30 := toNat_or_shiftLeft (n := 30) h24 (flag_toNat s.avSetupFull) (by omega) (by omega)
  exact toNat_or_shiftLeft h30 (flag_toNat s.rxEmpty) (by omega) (by omega)

theorem getLsbD_eq_of_bitField {w : Word} {n : Nat} {b : Bool} (h : bitField w.toNat n 1 = b.toNat) :
    w.getLsbD n = b := by
  rw [Bool.eq_iff_iff, ← bitField_eq_one_iff, h, Bool.toNat_eq_one]

/-- Settles O12: the value is the sum of its fields, so each is read back from its bits. -/
theorem statusRead : Obligations.StatusRead := by
  have hread := readsAs_register 7 (value := State.usbstat)
  refine ⟨hread, fun s hp hq => ⟨s.usbstat, hread.2 s, ?_⟩⟩
  have hlengths := queue_lengths_lt hp hq
  have hsum := usbstat_toNat hlengths
  have hflags := usbstat_flags_lt s
  refine ⟨BitVec.eq_of_toNat_eq ?_, getLsbD_eq_of_bitField ?_, BitVec.eq_of_toNat_eq ?_, getLsbD_eq_of_bitField ?_,
    ?_, ?_, getLsbD_eq_of_bitField (b := s.avOutFull) ?_, ?_, (bitField_eq_zero_iff _ _ _).1 ?_,
    getLsbD_eq_of_bitField (b := s.avSetupFull) ?_, getLsbD_eq_of_bitField (b := s.rxEmpty) ?_⟩ <;>
  · simp only [← bitField_toNat, bitField]
    omega

/-! ### The registers that refuse (R147, R148, R156 to R159, R162, R167, R168, R182 to R190) -/

theorem refusedAs_read (k : Nat) {reason : State → Refusal} (hk : k < 36 := by decide)
    (h : ∀ s, regRead registers[k] s = refuse reason s := by exact fun _ => rfl) :
    RefusedAs (BitVec.ofNat 32 (0x4000 + 4 * k)) (fun _ => registerReads[k]) reason :=
  ⟨registerCommand_registerReads k hk, fun _ s => (exec_registerRead k hk s).trans (readCommand_refuse (h s))⟩

theorem refusedAs_write (k : Nat) {reason : State → Refusal} (hk : k < 36 := by decide)
    (h : ∀ v s, regWrite registers[k] v s = refuse reason s := by exact fun _ _ => rfl) :
    RefusedAs (BitVec.ofNat 32 (0x5000 + 4 * k)) registerWrites[k] reason :=
  ⟨registerCommand_registerWrites k hk, fun v s => (exec_registerWrite k hk v s).trans (writeCommand_refuse (h v s))⟩

/-- Settles O21: the rules of the seven transactions refuse at once. -/
theorem alwaysRefusedTransactions : Obligations.AlwaysRefusedTransactions :=
  ⟨refusedAs_write 7, refusedAs_read 8, refusedAs_read 9, refusedAs_write 10, refusedAs_write 31, refusedAs_write 32,
    refusedAs_write 33⟩

/-- Settles O19: each write has one check, and the two stored registers are 0 where reserved fields are. -/
theorem unknownFieldRegisters : Obligations.UnknownFieldRegisters := by
  have hnak := readsAs_register 13 (value := fun s => s.setNakOut &&& epMask)
  have hdrive := readsAs_register 34 (value := fun s => s.phyPinsDrive)
  refine ⟨readsAs_register 3, hnak, hdrive, fun s hres => ?_, registerCommand_registerWrites 3 (by decide),
    registerCommand_registerWrites 13 (by decide), registerCommand_registerWrites 34 (by decide), fun v s => ?_⟩
  · obtain ⟨-, -, -, -, -, -, -, hnak0, -, -, -, -, -, -, -, -, hdrive0⟩ := hres
    exact ⟨(hnak.2 s).trans (by simp [hnak0]), (hdrive.2 s).trans (by simp [hdrive0])⟩
  · exact ⟨fun h => writeCommand_refuse (if_pos h), fun h => writeCommand_next (if_neg (not_not_intro h)),
      fun h => writeCommand_refuse (if_pos h), fun h => writeCommand_next (if_neg (not_not_intro h)),
      fun h => writeCommand_refuse (if_pos h), fun h => writeCommand_next (if_neg (not_not_intro h))⟩

/-- Settles O20: the write has one check; the read of PHY_PINS_SENSE is a draw. -/
theorem phyRegisters : Obligations.PhyRegisters :=
  ⟨registerCommand_registerReads 33 (by decide), fun _ => readCommand_next (read := regRead .phyPinsSense) rfl,
    readsAs_register 35, registerCommand_registerWrites 35 (by decide), fun _ _ =>
    ⟨fun h => writeCommand_refuse (if_pos h), fun h => writeCommand_next (if_neg (not_not_intro h))⟩⟩

end Sys2Proof.Machine

/-! SUPPORT. The register transactions that move a buffer between software and hardware: the availability ports, RXFIFO,
IN_SENT and CONFIGIN (R158, R160, R161, R169, R176). -/

namespace Sys2Proof.Machine

/-! ### The queues of buffers (R158, R160, R161) -/

/-- The rule of an availability port, with `queue`, `cap` and `put` its FIFO, capacity and the FIFO's replacement. -/
def portWrite (queue : State → List BufId) (cap : Params → Nat) (put : List BufId → State → State) (v : Word)
    (s : State) : Host.Outcome State Fault Refusal :=
  if s.ownerOf (bufIdOf v) = .hw then raise .doubleHandoff s
  else if (queue s).length = cap s.params then raise .availableOverflow (s.setIntr .availableBufferOverflow)
  else .next (put (queue s ++ [bufIdOf v]) (s.handOff (bufIdOf v)))

theorem eq_bufIdOf {v : Word} {b : BufId} (h : (v.extractLsb' 0 5).toNat = b.val) : b = bufIdOf v :=
  Fin.ext (h.symm.trans (bufIdOf_val v).symm)

theorem owner_sw_ne_hw {s : State} {b : BufId} (h : s.ownerOf b = .sw) : s.ownerOf b ≠ .hw := by
  rw [h]
  nofun

theorem writeAvOut_eq_portWrite :
    writeAvOut = portWrite State.avOut Params.avOutCap fun q s => { s with avOut := q } := rfl

theorem writeAvSetup_eq_portWrite :
    writeAvSetup = portWrite State.avSetup Params.avSetupCap fun q s => { s with avSetup := q } := rfl

theorem portWrites_register (k : Nat) {queue : State → List BufId} {cap : Params → Nat}
    {put : List BufId → State → State} (hk : k < 36) (h : regWrite registers[k] = portWrite queue cap put) :
    PortWrites (BitVec.ofNat 32 (0x5000 + 4 * k)) registerWrites[k] queue cap put := by
  refine ⟨registerCommand_registerWrites k hk, fun v s b hb => ?_⟩
  obtain rfl := eq_bufIdOf hb
  rw [exec_registerWrite k hk, h]
  exact ⟨fun hhw => writeCommand_raise .doubleHandoff (if_pos hhw),
    fun hsw hfull => writeCommand_raise .availableOverflow ((if_neg (owner_sw_ne_hw hsw)).trans (if_pos hfull)),
    fun hsw hroom => writeCommand_next ((if_neg (owner_sw_ne_hw hsw)).trans (if_neg hroom))⟩

/-- Settles O13: the two ports have one rule. -/
theorem availabilityPortWrites : Obligations.AvailabilityPortWrites :=
  ⟨portWrites_register 8 (by decide) writeAvOut_eq_portWrite,
    portWrites_register 9 (by decide) writeAvSetup_eq_portWrite⟩

theorem readRxFifo_nil {s : State} (h : s.rx = []) : readRxFifo s = .next (drawWord s) := by
  simp only [readRxFifo, h]

theorem readRxFifo_cons {s : State} {e : RxEntry} {rest : List RxEntry} (h : s.rx = e :: rest) :
    readRxFifo s = .next (rxWord e, { s with rx := rest }.takeBack e.buf) := by
  simp only [readRxFifo, h]

/-- Settles O14: by cases on the FIFO. -/
theorem receiveFifoRead : Obligations.ReceiveFifoRead :=
  ⟨registerCommand_registerReads 10 (by decide), fun _ h => readCommand_next (readRxFifo_nil h),
    fun _ _ _ h => readCommand_next (readRxFifo_cons h)⟩

/-! ### The completions (R169) -/

theorem inOwnOf_collect (sent : Word) (s : State) (e e' : EpId) :
    (collect sent s e).inOwnOf e' = if e = e' ∧ epBit sent e = true then none else s.inOwnOf e' := by
  rw [collect]
  by_cases hsent : epBit sent e = true
  · rw [if_pos hsent]
    split
    case h_1 => simp [hsent]
    case h_2 hnone =>
      split
      case isTrue h => rw [← h.1, hnone]
      case isFalse => rfl
  · simp [hsent]

theorem ownerOf_collect (sent : Word) (s : State) (e : EpId) (b : BufId) :
    (collect sent s e).ownerOf b = if epBit sent e = true ∧ s.inOwnOf e = some b then .sw else s.ownerOf b := by
  rw [collect]
  by_cases hsent : epBit sent e = true
  · rw [if_pos hsent]
    split
    case h_1 hin => simp [hsent, hin]
    case h_2 hnone => simp [hnone]
  · simp [hsent]

theorem collect_frame (sent : Word) (s : State) (e : EpId) :
    collect sent s e = { s with owner := (collect sent s e).owner, inOwn := (collect sent s e).inOwn } := by
  rw [collect]
  split
  · split <;> rfl
  · rfl

section
variable (sent : Word) (es : List EpId) (s : State)

theorem collects_frame : es.foldl (collect sent) s =
    { s with owner := (es.foldl (collect sent) s).owner, inOwn := (es.foldl (collect sent) s).inOwn } := by
  induction es generalizing s with
  | nil => rfl
  | cons e es ih =>
    rw [List.foldl_cons, ih, collect_frame sent s e]

theorem inOwnOf_collects (e' : EpId) : (es.foldl (collect sent) s).inOwnOf e' =
    if e' ∈ es ∧ epBit sent e' = true then none else s.inOwnOf e' := by
  induction es generalizing s with
  | nil => simp
  | cons e es ih =>
    rw [List.foldl_cons, ih, inOwnOf_collect]
    by_cases he : e = e'
    · subst he
      by_cases hsent : epBit sent e = true <;> simp [hsent]
    · simp [he, Ne.symm he]

/-- A buffer goes back to software when an endpoint whose bit the read sees names it (R169). -/
theorem ownerOf_collects (b : BufId) : (es.foldl (collect sent) s).ownerOf b =
    if ∃ e ∈ es, epBit sent e = true ∧ s.inOwnOf e = some b then .sw else s.ownerOf b := by
  induction es generalizing s with
  | nil => simp
  | cons e es ih =>
    rw [List.foldl_cons, ih, ownerOf_collect]
    by_cases hnow : epBit sent e = true ∧ s.inOwnOf e = some b
    · rw [if_pos hnow, ite_self, if_pos ⟨e, List.mem_cons_self, hnow⟩]
    · have hlater : ∀ e', (epBit sent e' = true ∧ (collect sent s e).inOwnOf e' = some b) ↔
          epBit sent e' = true ∧ s.inOwnOf e' = some b := by
        intro e'
        rw [inOwnOf_collect]
        by_cases he : e = e'
        · subst he
          exact iff_of_false (fun ⟨hsent, hin⟩ => by simp [hsent] at hin) hnow
        · simp [he]
      simp only [hlater, List.mem_cons, exists_eq_or_imp, hnow, false_or, if_false]

end

theorem epBit_and_epMask (w : Word) (e : EpId) : epBit (w &&& epMask) e = w.getLsbD e.val := by
  have hmask : ∀ e : EpId, epMask.getLsbD e.val = true := by decide
  rw [epBit, BitVec.getLsbD_and, hmask, Bool.and_true]

/-- Settles O15: the endpoints are collected one after another, and a buffer that two of them name goes back once. -/
theorem inSentRead : Obligations.InSentRead := by
  refine ⟨registerCommand_registerReads 14 (by decide), fun s => ?_⟩
  have hread : exec .rdInSent s = _ := readCommand_next (s := s) (read := regRead .inSent) rfl
  refine ⟨_, hread, congrArg (State.done · 1 _) (collects_frame _ _ s), fun e => ?_, fun b => ?_⟩
  · refine (inOwnOf_collects _ _ s e).trans ?_
    simp [epBit_and_epMask]
  · refine (ownerOf_collects _ _ s b).trans ?_
    simp [epBit_and_epMask]

/-! ### CONFIGIN (R176) -/

section
variable {e : EpId} {v : Word} {s : State}

/-- The state a CONFIGIN write stores its word in: with Ready, the buffer is handed to hardware and recorded (R176). -/
def assigned (e : EpId) (v : Word) (s : State) : State :=
  if readyBit v then (s.handOff (bufIdOf v)).setInOwn e (some (bufIdOf v)) else s

@[simp] theorem assigned_configIn : (assigned e v s).configIn = s.configIn := by
  rw [assigned]
  split <;> rfl

@[simp] theorem assigned_draws : (assigned e v s).draws = s.draws := by
  rw [assigned]
  split <;> rfl

theorem storeConfig_kept (h : pendingBit v = false) :
    storeConfig e v s = s.setConfig e (storedConfig v (pendingBit (s.configOf e))) := by
  rw [storeConfig, if_neg (ne_true_of_eq_false h)]

theorem storeConfig_drawn (h : pendingBit v = true) : storeConfig e v s =
    ({ s with draws := s.draws + 1 } : State).setConfig e (storedConfig v (Config.freeBool s.draws)) := by
  rw [storeConfig, if_pos h]
  rfl

theorem inHandOff_oversize (h : 64 < (sizeField v).toNat) : inHandOff e v s = raise .argumentRange s := if_pos h

theorem inHandOff_owned (hsize : (sizeField v).toNat ≤ 64) (h : s.ownerOf (bufIdOf v) = .hw) :
    inHandOff e v s = raise .doubleHandoff s := (if_neg (Nat.not_lt.2 hsize)).trans (if_pos h)

theorem inHandOff_next (hsize : (sizeField v).toNat ≤ 64) (h : s.ownerOf (bufIdOf v) = .sw) :
    inHandOff e v s = .next ((s.handOff (bufIdOf v)).setInOwn e (some (bufIdOf v))) :=
  (if_neg (Nat.not_lt.2 hsize)).trans (if_neg (owner_sw_ne_hw h))

theorem writeConfigIn_busy (h : (readyBit (s.configOf e) || sendingBit (s.configOf e)) = true) :
    writeConfigIn e v s = refuse .inTransferBusy s := if_pos h

variable (hidle : (readyBit (s.configOf e) || sendingBit (s.configOf e)) = false)
include hidle

theorem writeConfigIn_uncollected (h : s.inOwnOf e ≠ none) : writeConfigIn e v s = raise .uncollectedCompletion s :=
  (if_neg (ne_true_of_eq_false hidle)).trans (if_pos (Option.isSome_iff_ne_none.2 h))

variable (hfree : s.inOwnOf e = none)
include hfree

/-- Past its first two checks a CONFIGIN write hands its buffer off, if it sets Ready, and stores its word. -/
theorem writeConfigIn_idle : writeConfigIn e v s =
    if readyBit v then andThen (inHandOff e v s) fun t => .next (storeConfig e v t)
    else .next (storeConfig e v s) :=
  (if_neg (ne_true_of_eq_false hidle)).trans (if_neg (by simp [hfree]))

theorem writeConfigIn_oversize (hready : readyBit v = true) (h : 64 < (sizeField v).toNat) :
    writeConfigIn e v s = raise .argumentRange s := by
  rw [writeConfigIn_idle hidle hfree, if_pos hready, inHandOff_oversize h]
  rfl

theorem writeConfigIn_owned (hready : readyBit v = true) (hsize : (sizeField v).toNat ≤ 64)
    (h : s.ownerOf (bufIdOf v) = .hw) : writeConfigIn e v s = raise .doubleHandoff s := by
  rw [writeConfigIn_idle hidle hfree, if_pos hready, inHandOff_owned hsize h]
  rfl

theorem writeConfigIn_next
    (h : readyBit v = true → (sizeField v).toNat ≤ 64 ∧ s.ownerOf (bufIdOf v) = .sw) :
    writeConfigIn e v s = .next (storeConfig e v (assigned e v s)) := by
  rw [writeConfigIn_idle hidle hfree, assigned]
  split
  case isTrue hready =>
    obtain ⟨hsize, hsw⟩ := h hready
    rw [inHandOff_next hsize hsw, andThen_next]
  case isFalse => rfl

end

theorem configWrites_register (k : Nat) (e : EpId) (hk : k < 36 := by decide)
    (h : registers[k] = .configIn e := by rfl) :
    ConfigWrites (BitVec.ofNat 32 (0x5000 + 4 * k)) registerWrites[k] e := by
  refine ⟨registerCommand_registerWrites k hk, fun v s b hb => ?_⟩
  obtain rfl := eq_bufIdOf hb
  rw [exec_registerWrite k hk, h]
  intro c busy stored u allowed
  have hstored : ∀ p, stored p = storedConfig v p := fun p => by cases p <;> rfl
  refine ⟨fun hbusy => writeCommand_refuse (writeConfigIn_busy hbusy),
    fun hidle hin => writeCommand_raise .uncollectedCompletion (writeConfigIn_uncollected hidle hin),
    fun hidle hin hready hsize => writeCommand_raise .argumentRange (writeConfigIn_oversize hidle hin hready hsize),
    fun hidle hin hready hsize hhw =>
      writeCommand_raise .doubleHandoff (writeConfigIn_owned hidle hin hready hsize hhw),
    fun hidle hin hallowed hkept => ?_, fun hidle hin hallowed hdrawn => ?_⟩ <;> rw [hstored]
  · refine writeCommand_next ((writeConfigIn_next hidle hin hallowed).trans ?_)
    rw [storeConfig_kept hkept, State.setConfig, State.configOf, assigned_configIn]
    rfl
  · refine writeCommand_next ((writeConfigIn_next hidle hin hallowed).trans ?_)
    rw [storeConfig_drawn hdrawn, State.setConfig, assigned_configIn, assigned_draws]
    rfl

/-- Settles O18: the checks of the rule in their order, once for all endpoints. -/
theorem configInWrites : Obligations.ConfigInWrites :=
  ⟨configWrites_register 17 0, configWrites_register 18 1, configWrites_register 19 2, configWrites_register 20 3,
    configWrites_register 21 4, configWrites_register 22 5, configWrites_register 23 6, configWrites_register 24 7,
    configWrites_register 25 8, configWrites_register 26 9, configWrites_register 27 10, configWrites_register 28 11⟩

end Sys2Proof.Machine

/-! SUPPORT. The transactions to the offsets past the registers: packet buffer memory and the unmapped offsets (R191 to
R195). -/

namespace Sys2Proof.Machine

/-! ### Packet buffer memory (R191 to R194) -/

theorem add_bufOff (n : Nat) (p : Params) (b : BufId) (k : WordIx) :
    n + p.bufBase + 64 * b.val + 4 * k.val = n + bufOff p b k := by
  simp only [bufOff, Nat.add_assoc]

theorem decode_bufferWord {p : Params} (hp : p.LayoutOk) (write : Bool) (b : BufId) (k : WordIx) (v : Word)
    (x : Slots) : decode p ⟨wordDescriptor write (bufOff p b k), v, x⟩ =
      .ok (if write then .wrBuf b k v else .rdBuf b k) :=
  (decode_word p write _ v x (buffer_offset_lt hp (bufOff_inBuffers p b k)) (bufOff_aligned hp b k)).trans
    (wordAccess_buffer p write b k v)

/-- Settles O23: by cases on the buffer's owner. -/
theorem bufferWordRead : Obligations.BufferWordRead := by
  refine ⟨fun p b k v x hp => ?_, fun b k s => ⟨fun hhw => ?_, fun hsw => ?_⟩⟩
  · rw [add_bufOff]
    exact decode_bufferWord hp false b k v x
  · exact readCommand_raise .ownershipViolation (if_pos hhw)
  · exact ⟨_, readCommand_next (if_neg (owner_sw_ne_hw hsw)), fun j => byteOfWord_bufWord s b k j j.isLt⟩

/-- Settles O24: by cases on the buffer's owner; a byte lies in the word stored or is as before. -/
theorem bufferWordWrite : Obligations.BufferWordWrite := by
  refine ⟨fun p b k v x hp => ?_, fun b k v s => ⟨fun hhw => ?_, fun hsw => ?_⟩⟩
  · rw [add_bufOff]
    exact decode_bufferWord hp true b k v x
  · exact writeCommand_raise .ownershipViolation (if_pos hhw)
  · refine ⟨_, writeCommand_next (if_neg (owner_sw_ne_hw hsw)), rfl, fun b' j => ?_⟩
    refine (bufByte_setBuffer s b b' _ j).trans ?_
    rw [putWord_getElem]
    by_cases hb : b = b'
    · subst hb
      simp only [if_true, true_and]
      rfl
    · simp only [hb, Ne.symm hb, if_false, false_and]

/-- What stands beside a sub-word descriptor as operand slots is not read (R111). -/
theorem decode_subWord_slots {p : Params} (hp : p.LayoutOk) {half : Bool} {off : Nat} (hin : p.InBuffers off)
    (h2 : half = true → off % 2 = 0) (v : Word) (x : Slots) :
    decode p ⟨subWordDescriptor half off, v, x⟩ = decode p ⟨subWordDescriptor half off, v, {}⟩ :=
  have hoff := buffer_offset_lt hp hin
  (decode_subWord p half off v x hoff hin.1 h2).trans (decode_subWord p half off v {} hoff hin.1 h2).symm

/-- Settles O25: the descriptors are the encoder's, whatever the operand slots; the rule does nothing. -/
theorem subWordWritesDropped : Obligations.SubWordWritesDropped := by
  refine ⟨fun p b j v x hp => ?_, fun p b h v x hp => ?_, fun _ _ _ _ => writeCommand_next rfl,
    fun _ _ _ _ => writeCommand_next rfl⟩
  · rw [Nat.add_assoc, Nat.add_assoc, ← Nat.add_assoc p.bufBase]
    have hin : p.InBuffers (p.bufBase + 64 * b.val + j.val) := by
      simp only [Params.InBuffers, Config.bufMemBytes]; omega
    exact (decode_subWord_slots (half := false) hp hin nofun v x).trans (decode_encode_byteWrite hp b j v)
  · have h64 : p.bufBase % 64 = 0 := hp.2.1
    rw [Nat.add_assoc, Nat.add_assoc, ← Nat.add_assoc p.bufBase]
    have hin : p.InBuffers (p.bufBase + 64 * b.val + 2 * h.val) := by
      simp only [Params.InBuffers, Config.bufMemBytes]; omega
    exact (decode_subWord_slots (half := true) hp hin (fun _ => by omega) v x).trans
      (decode_encode_halfwordWrite hp b h v)

/-! ### The unmapped offsets (R195) -/

theorem exec_of_unmappedOffset {i : Instr} {off : Nat} (h : off ∈ i.unmappedOffset) (s : State) :
    exec i s = .refused (.unmappedOffset s.asRefused) := by
  cases i with
  | rdUnmapped090 | wrUnmapped090 | rdUnmapped0A0 | wrUnmapped0A0 | rdUnmapped0C0 | wrUnmapped0C0
  | rdUnmapped100 | wrUnmapped100 | rdUnmapped200 | wrUnmapped200 | rdUnmapped400 | wrUnmapped400 => rfl
  | _ => cases h

/-- A word descriptor between the registers and the buffers is an unmapped access. -/
theorem decode_between {p : Params} (hp : p.LayoutOk) (write : Bool) {off : Nat} (hlo : p.regBase + 0x90 ≤ off)
    (hhi : off < p.bufBase) (h4 : off % 4 = 0) (v : Word) (x : Slots) :
    decode p ⟨wordDescriptor write off, v, x⟩ = unmappedAccess write off v := by
  have ⟨_, _, _, hw, hpage⟩ := hp
  simp only [Config.bufMemBytes, Config.pageBytes] at hw hpage
  exact (decode_word p write off v x (by omega) h4).trans (wordAccess_unmapped p write off v h4
    (by simp only [Params.InRegisters, Config.regBytes]; omega) (by simp only [Params.InBuffers]; omega))

theorem unmappedAccess_cases (write : Bool) {off : Nat} (h4 : off % 4 = 0) (v : Word) :
    (∃ i, unmappedAccess write off v = .ok i ∧ i.unmappedOffset = some off) ∨
      unmappedAccess write off v = .error .unmappedOffset := by
  by_cases hrow : 0x090 ≤ off ∧ off < 0x800
  · exact .inl (exists_unmappedAccess write hrow.1 hrow.2 h4 v)
  · exact .inr (unmappedAccess_of_no_row write hrow v)

/-- At the default layout every word between the registers and the buffers has a row of the table (R195). -/
theorem decode_default_between (write : Bool) {off : Nat} (hlo : 0x090 ≤ off) (hhi : off < 0x800) (h4 : off % 4 = 0)
    (v : Word) (x : Slots) (s : State) : ∃ i, decode .default ⟨wordDescriptor write off, v, x⟩ = .ok i ∧
      exec i s = .refused (.unmappedOffset s.asRefused) := by
  obtain ⟨i, hi, hoff⟩ := exists_unmappedAccess write hlo hhi h4 v
  have hdecode := decode_between (p := .default) (by decide) write (hlo.trans' (by decide)) hhi h4 v x
  exact ⟨i, hdecode.trans hi, exec_of_unmappedOffset hoff s⟩

/-- A step whose command is a word between the registers and the buffers is refused, by the row's instruction or by the
decoder (R195, log 12). -/
theorem step_between {s : State} (hp : s.params.LayoutOk) (write : Bool) {off : Nat}
    (hlo : s.params.regBase + 0x90 ≤ off) (hhi : off < s.params.bufBase) (h4 : off % 4 = 0) {v : Word} {x : Slots}
    (hturn : s.SwTurn) (hcmd : s.prog[s.pc.op]? = some ⟨wordDescriptor write off, v, x⟩) :
    ∃ t, step s = .refused (.unmappedOffset t) ∧ t.refused = true := by
  have hdecode := decode_between hp write hlo hhi h4 v x
  rcases unmappedAccess_cases write h4 v with ⟨i, hi, hoff⟩ | herror
  · rw [step_swTurn hturn, swTurn_decoded hcmd (hdecode.trans hi), exec_of_unmappedOffset hoff]
    exact ⟨_, rfl, rfl⟩
  · rw [step_undecoded hturn hcmd (hdecode.trans herror)]
    exact ⟨_, rfl, rfl⟩

/-- Settles O22: by what the decoder answers for such a word, and by the rows' one meaning. -/
theorem unmappedOffsetsRefused : Obligations.UnmappedOffsetsRefused := by
  refine ⟨fun off v x s hlo hhi h4 => ⟨decode_default_between false hlo hhi h4 v x s,
      decode_default_between true hlo hhi h4 v x s⟩, fun off v x s d hp hlo hhi h4 hd hturn hcmd => ?_, fun s v => ?_⟩
  · rcases hd with rfl | rfl
    · exact step_between hp false hlo hhi h4 hturn hcmd
    · exact step_between hp true hlo hhi h4 hturn hcmd
  · have row {i : Instr} {off : Nat} (h : off ∈ i.unmappedOffset) := exec_of_unmappedOffset h s
    exact ⟨fun _ => row rfl, fun _ => row rfl, fun _ => row rfl, fun _ => row rfl, fun _ => row rfl, fun _ => row rfl,
      fun _ => row rfl, fun _ => row rfl, fun _ => row rfl, fun _ => row rfl, fun _ => row rfl, fun _ => row rfl⟩

end Sys2Proof.Machine

/-! SUPPORT. The buffer pool manager (R200 to R202): the transactions of its scan, what the scan does with the next
offered id, and what it does with all of them, for every schedule and with no link step. -/

namespace Sys2Proof.Machine

/-! ### The transactions of the scan (R155, R158, R160) -/

theorem closed_queues : Closed State.QueuesInRange := closed_of_moves Move.queues

/-- The full flags of USBSTAT are the FIFOs' (R30, R155). -/
theorem usbstat_full {s : State} (hp : s.params.Ok) (hq : s.QueuesInRange) :
    s.usbstat.getLsbD 23 = s.avOutFull ∧ s.usbstat.getLsbD 30 = s.avSetupFull := by
  have hlengths := queue_lengths_lt hp hq
  have hsum := usbstat_toNat hlengths
  have hflags := usbstat_flags_lt s
  constructor <;>
  · apply getLsbD_eq_of_bitField
    simp only [bitField]
    omega

/-- The state after a read of USBSTAT inside an operation. -/
def afterStatus (s : State) : State := (devPoint s).tick

theorem devRead_usbstat (s : State) : devRead .usbstat s = .next ((devPoint s).usbstat, afterStatus s) := rfl

/-- The state after buffer `b` is written to AVSETUPBUFFER inside an operation (R160). -/
def placeSetup (b : BufId) (s : State) : State :=
  ({ devPoint s with avSetup := (devPoint s).avSetup ++ [b] }.handOff b).tick

/-- The state after buffer `b` is written to AVOUTBUFFER inside an operation (R158). -/
def placeOut (b : BufId) (s : State) : State :=
  ({ devPoint s with avOut := (devPoint s).avOut ++ [b] }.handOff b).tick

theorem bufIdOf_availWord (b : BufId) : bufIdOf (availWord b.val) = b := by
  rw [bufIdOf, availWord_toNat]
  apply Fin.ext
  simp [Fin.ofNat]

/-- A port with room takes a software-owned buffer. -/
theorem portWrite_next {queue : State → List BufId} {cap : Params → Nat} {put : List BufId → State → State}
    {s : State} {b : BufId} (hsw : s.ownerOf b = .sw) (hroom : (queue s).length < cap s.params) :
    portWrite queue cap put (availWord b.val) s = .next (put (queue s ++ [b]) (s.handOff b)) := by
  rw [portWrite, bufIdOf_availWord, if_neg (owner_sw_ne_hw hsw), if_neg hroom.ne]

/-- The link engine only takes ids out of AVSETUP, so room before its steps is room at the write. -/
theorem devWrite_avSetup {s : State} {b : BufId} (hsw : s.ownerOf b = .sw)
    (hroom : s.avSetup.length < s.params.avSetupCap) :
    devWrite .avSetupBuffer (availWord b.val) s = .next (placeSetup b s) := by
  have hshorter := (devPoint_le s).avSetup.length_le
  rw [devWrite, busWrite, regWrite, writeAvSetup_eq_portWrite,
    portWrite_next (by rwa [devPoint_ownerOf]) (by rw [devPoint_params]; omega)]
  rfl

/-- The link engine only takes ids out of AVOUT, so room before its steps is room at the write. -/
theorem devWrite_avOut {s : State} {b : BufId} (hsw : s.ownerOf b = .sw)
    (hroom : s.avOut.length < s.params.avOutCap) :
    devWrite .avOutBuffer (availWord b.val) s = .next (placeOut b s) := by
  have hshorter := (devPoint_le s).avOut.length_le
  rw [devWrite, busWrite, regWrite, writeAvOut_eq_portWrite,
    portWrite_next (by rwa [devPoint_ownerOf]) (by rw [devPoint_params]; omega)]
  rfl

@[simp] theorem params_afterStatus (s : State) : (afterStatus s).params = s.params := devPoint_params s

@[simp] theorem ownerOf_afterStatus (s : State) (b : BufId) : (afterStatus s).ownerOf b = s.ownerOf b :=
  devPoint_ownerOf s b

theorem swPart_afterStatus (s : State) : (afterStatus s).swPart = s.tick.swPart := by
  simp [afterStatus, State.swPart]

theorem swPart_placeSetup (b : BufId) (s : State) : (placeSetup b s).swPart = (s.handOff b).tick.swPart := by
  simp [placeSetup, State.swPart]

theorem swPart_placeOut (b : BufId) (s : State) : (placeOut b s).swPart = (s.handOff b).tick.swPart := by
  simp [placeOut, State.swPart]

theorem ownerOf_of_swPart {s t : State} (h : t.swPart = s.swPart) (b : BufId) : t.ownerOf b = s.ownerOf b :=
  congrArg (fun p : SwPart => p.owner[b]) h

/-! ### The working bitmap and the ids on offer (R200, R201) -/

/-- The working bitmap without the bit of a buffer. -/
def withoutBit (m : Word) (b : BufId) : Word := m &&& ~~~(bit b.val)

theorem getLsbD_withoutBit (m : Word) (b c : BufId) :
    (withoutBit m b).getLsbD c.val = (m.getLsbD c.val && decide (c ≠ b)) := by
  simp [withoutBit, Fin.ext_iff]

theorem getLsbD_withoutBit_of_ne (m : Word) {b c : BufId} (h : c ≠ b) :
    (withoutBit m b).getLsbD c.val = m.getLsbD c.val := by
  rw [getLsbD_withoutBit, decide_eq_true h, Bool.and_true]

/-- The ids of a list are on offer: they are distinct, their bits are set in the working bitmap, software owns them
(R201), and the state is within its capacities. -/
structure Offered (ids : List BufId) (m : Word) (s : State) : Prop where
  nodup : ids.Nodup
  marked : ∀ b ∈ ids, m.getLsbD b.val = true
  sw : ∀ b ∈ ids, s.ownerOf b = .sw
  params : s.params.Ok
  queues : s.QueuesInRange

section
variable {b : BufId} {ids : List BufId} {m : Word} {s t : State}

theorem Offered.read (h : Offered ids m s) : Offered ids m (afterStatus s) where
  nodup := h.nodup
  marked := h.marked
  sw b hb := (ownerOf_afterStatus s b).trans (h.sw b hb)
  params := by simpa using h.params
  queues := closed_queues.devRead h.queues (devRead_usbstat s)

/-- Once the first id is handed over, the others are still on offer. -/
theorem Offered.tail (h : Offered (b :: ids) m s) (hsw : t.swPart = (s.handOff b).tick.swPart)
    (hqueues : t.QueuesInRange) : Offered ids (withoutBit m b) t := by
  obtain ⟨hb, hnodup⟩ := List.nodup_cons.1 h.nodup
  have hne : ∀ c ∈ ids, c ≠ b := fun c hc => ne_of_mem_of_not_mem hc hb
  refine ⟨hnodup, fun c hc => ?_, fun c hc => ?_, ?_, hqueues⟩
  · rw [getLsbD_withoutBit_of_ne m (hne c hc)]
    exact h.marked c (.tail _ hc)
  · rw [ownerOf_of_swPart hsw, ownerOf_tick, ownerOf_handOff, if_neg (hne c hc).symm]
    exact h.sw c (.tail _ hc)
  · rw [show t.params = s.params from congrArg SwPart.params hsw]
    exact h.params

theorem Offered.setup (h : Offered (b :: ids) m s) (hroom : s.avSetup.length < s.params.avSetupCap) :
    Offered ids (withoutBit m b) (placeSetup b s) :=
  h.tail (swPart_placeSetup b s) (closed_queues.devWrite h.queues (devWrite_avSetup (h.sw b (.head _)) hroom))

theorem Offered.out (h : Offered (b :: ids) m s) (hroom : s.avOut.length < s.params.avOutCap) :
    Offered ids (withoutBit m b) (placeOut b s) :=
  h.tail (swPart_placeOut b s) (closed_queues.devWrite h.queues (devWrite_avOut (h.sw b (.head _)) hroom))

/-! ### What the scan does with the next id (R200) -/

/-- The scan over a list of buffers. -/
def scanIds (ids : List BufId) : Word → State → Host.Outcome (Word × State) Fault Refusal :=
  supplyScan (ids.map Fin.val)

theorem scanIds_unmarked (h : m.getLsbD b.val = false) (ids : List BufId) (s : State) :
    scanIds (b :: ids) m s = scanIds ids m s := by
  rw [scanIds, List.map_cons, supplyScan, if_neg (ne_true_of_eq_false h), scanIds]

theorem scanIds_marked (h : m.getLsbD b.val = true) (ids : List BufId) (s : State) :
    scanIds (b :: ids) m s =
      if (devPoint s).usbstat.getLsbD 30 then
        if (devPoint (afterStatus s)).usbstat.getLsbD 23 then .next (m, afterStatus (afterStatus s))
        else andThen (devWrite .avOutBuffer (availWord b.val) (afterStatus (afterStatus s)))
          (scanIds ids (withoutBit m b))
      else andThen (devWrite .avSetupBuffer (availWord b.val) (afterStatus s)) (scanIds ids (withoutBit m b)) := by
  rw [scanIds, List.map_cons, supplyScan, if_pos h]
  rfl

/-- The scan skips the ids whose bits are clear. -/
theorem scanIds_filter (hnodup : ids.Nodup) : scanIds ids m s = scanIds (ids.filter fun b => m.getLsbD b.val) m s := by
  induction ids generalizing m s with
  | nil => rfl
  | cons b ids ih =>
    obtain ⟨hb, hnodup⟩ := List.nodup_cons.1 hnodup
    rw [List.filter_cons]
    split
    case isFalse hm => rw [scanIds_unmarked (eq_false_of_ne_true hm), ih hnodup]
    case isTrue hm =>
      have hfilter : (ids.filter fun c => (withoutBit m b).getLsbD c.val) = ids.filter fun c => m.getLsbD c.val :=
        List.filter_congr fun c hc => getLsbD_withoutBit_of_ne m (ne_of_mem_of_not_mem hc hb)
      have htail : scanIds ids (withoutBit m b) = scanIds (ids.filter fun c => m.getLsbD c.val) (withoutBit m b) := by
        funext t
        rw [ih hnodup, hfilter]
      rw [scanIds_marked hm, scanIds_marked hm, htail]

/-- A read of USBSTAT shows the FIFOs as they are after it. -/
theorem Offered.status (h : Offered ids m s) : (devPoint s).usbstat.getLsbD 23 = (afterStatus s).avOutFull ∧
    (devPoint s).usbstat.getLsbD 30 = (afterStatus s).avSetupFull := usbstat_full h.read.params h.read.queues

theorem Offered.scanIds_setup (h : Offered (b :: ids) m s)
    (hroom : (afterStatus s).avSetup.length < s.params.avSetupCap) :
    scanIds (b :: ids) m s = scanIds ids (withoutBit m b) (placeSetup b (afterStatus s)) := by
  rw [scanIds_marked (h.marked b (.head _)), h.status.2, if_neg (by simp [State.avSetupFull, hroom.ne]),
    devWrite_avSetup (h.read.sw b (.head _)) (by simpa using hroom), andThen_next]

theorem Offered.scanIds_out (h : Offered (b :: ids) m s)
    (hfull : (afterStatus s).avSetup.length = s.params.avSetupCap)
    (hroom : (afterStatus (afterStatus s)).avOut.length < s.params.avOutCap) :
    scanIds (b :: ids) m s = scanIds ids (withoutBit m b) (placeOut b (afterStatus (afterStatus s))) := by
  rw [scanIds_marked (h.marked b (.head _)), h.status.2, if_pos (by simp [State.avSetupFull, hfull]), h.read.status.1,
    if_neg (by simp [State.avOutFull, hroom.ne]), devWrite_avOut (h.read.read.sw b (.head _)) (by simpa using hroom),
    andThen_next]

theorem Offered.scanIds_full (h : Offered (b :: ids) m s)
    (hfull : (afterStatus s).avSetup.length = s.params.avSetupCap)
    (hfull' : (afterStatus (afterStatus s)).avOut.length = s.params.avOutCap) :
    scanIds (b :: ids) m s = .next (m, afterStatus (afterStatus s)) := by
  rw [scanIds_marked (h.marked b (.head _)), h.status.2, if_pos (by simp [State.avSetupFull, hfull]), h.read.status.1,
    if_pos (by simp [State.avOutFull, hfull'])]

/-! ### The scan for every schedule (R200, R202) -/

/-- What a part of the scan does that turns the bitmap `m` into `m'`: the buffers whose bits it clears become
hardware's, and of the fields the link engine never writes only the owners and the transaction count change. -/
structure Supplied (m m' : Word) (s t : State) : Prop where
  frame : t.swPart = { s.swPart with owner := t.owner, pc := ⟨s.pc.op, t.pc.t⟩ }
  count : s.pc.t ≤ t.pc.t
  subset : ∀ b : BufId, m'.getLsbD b.val = true → m.getLsbD b.val = true
  owner : ∀ b : BufId, t.ownerOf b =
    if m.getLsbD b.val = true ∧ m'.getLsbD b.val = false then .hw else s.ownerOf b

theorem Supplied.refl (m : Word) (s : State) : Supplied m m s s where
  frame := rfl
  count := le_rfl
  subset _ := id
  owner b := by simp

theorem Supplied.trans {m m' m'' : Word} {s t u : State} (h : Supplied m m' s t) (k : Supplied m' m'' t u) :
    Supplied m m'' s u where
  frame := by
    have hop : t.pc.op = s.pc.op := congrArg (fun p : SwPart => p.pc.op) h.frame
    rw [k.frame, h.frame, hop]
  count := h.count.trans k.count
  subset b hb := h.subset b (k.subset b hb)
  owner b := by
    have hsub := h.subset b
    have hsub' := k.subset b
    rw [k.owner, h.owner]
    grind

theorem Supplied.read (m : Word) (s : State) : Supplied m m s (afterStatus s) where
  frame := by simp [State.swPart, afterStatus]
  count := by simp [afterStatus]
  subset _ := id
  owner b := by simp

theorem Supplied.handOff (hm : m.getLsbD b.val = true) (hsw : t.swPart = (s.handOff b).tick.swPart) :
    Supplied m (withoutBit m b) s t where
  frame := by
    have howner : t.owner = (s.handOff b).owner := congrArg SwPart.owner hsw
    have hpc : t.pc = s.tick.pc := congrArg SwPart.pc hsw
    rw [hsw, howner, hpc]
    rfl
  count := by
    have hpc : t.pc = s.tick.pc := congrArg SwPart.pc hsw
    rw [hpc]
    exact Nat.le_succ _
  subset c hc := by
    rw [getLsbD_withoutBit] at hc
    exact (Bool.and_eq_true_iff.1 hc).1
  owner c := by
    rw [ownerOf_of_swPart hsw, ownerOf_tick, ownerOf_handOff, getLsbD_withoutBit]
    grind

/-- The scan of ids on offer completes, whatever the link engine does. -/
theorem Offered.scanIds_supplied (h : Offered ids m s) :
    ∃ m' t, scanIds ids m s = .next (m', t) ∧ Supplied m m' s t := by
  induction ids generalizing m s with
  | nil => exact ⟨m, s, rfl, .refl m s⟩
  | cons b ids ih =>
    have hm := h.marked b (.head _)
    have hread := Supplied.read m s
    have hread' := hread.trans (.read m (afterStatus s))
    obtain ⟨-, hsetup, -⟩ := h.read.queues
    obtain ⟨hout, -⟩ := h.read.read.queues
    simp only [params_afterStatus] at hsetup hout
    rcases hsetup.lt_or_eq with hroom | hfull
    · obtain ⟨m', t, hscan, hrest⟩ := ih (h.read.setup (by simpa using hroom))
      have hplace := Supplied.handOff hm (swPart_placeSetup b (afterStatus s))
      exact ⟨m', t, (h.scanIds_setup hroom).trans hscan, (hread.trans hplace).trans hrest⟩
    · rcases hout.lt_or_eq with hroom | hfull'
      · obtain ⟨m', t, hscan, hrest⟩ := ih (h.read.read.out (by simpa using hroom))
        have hplace := Supplied.handOff hm (swPart_placeOut b (afterStatus (afterStatus s)))
        exact ⟨m', t, (h.scanIds_out hfull hroom).trans hscan, (hread'.trans hplace).trans hrest⟩
      · exact ⟨m, _, h.scanIds_full hfull hfull', hread'⟩

/-! ### The scan with no link step (R200) -/

/-- `s` with ids appended to both availability FIFOs, other owners and `n` transactions performed. -/
def State.supplied (s : State) (setup out : List BufId) (owner : Vector Owner 32) (n : Nat) : State :=
  { s with avSetup := s.avSetup ++ setup, avOut := s.avOut ++ out, owner := owner, pc := ⟨s.pc.op, s.pc.t + n⟩ }

@[simp] theorem supplied_params (s : State) (setup out : List BufId) (owner : Vector Owner 32) (n : Nat) :
    (s.supplied setup out owner n).params = s.params := rfl
@[simp] theorem supplied_avSetup (s : State) (setup out : List BufId) (owner : Vector Owner 32) (n : Nat) :
    (s.supplied setup out owner n).avSetup = s.avSetup ++ setup := rfl
@[simp] theorem supplied_avOut (s : State) (setup out : List BufId) (owner : Vector Owner 32) (n : Nat) :
    (s.supplied setup out owner n).avOut = s.avOut ++ out := rfl

theorem supplied_supplied (s : State) (setup setup' out out' : List BufId) (owner owner' : Vector Owner 32)
    (n n' : Nat) : (s.supplied setup out owner n).supplied setup' out' owner' n' =
      s.supplied (setup ++ setup') (out ++ out') owner' (n + n') := by
  simp [State.supplied, Nat.add_assoc]

theorem afterStatus_quiet (hquiet : s.Quiet) : afterStatus s = s.tick := by rw [afterStatus, devPoint_quiet hquiet]

theorem afterStatus_twice_quiet (hquiet : s.Quiet) :
    afterStatus (afterStatus s) = s.supplied [] [] s.owner 2 := by
  rw [afterStatus_quiet hquiet, afterStatus_quiet (s := s.tick) hquiet]
  simp [State.supplied, State.tick]

theorem placeSetup_quiet (hquiet : s.Quiet) (b : BufId) :
    placeSetup b (afterStatus s) = s.supplied [b] [] (s.handOff b).owner 2 := by
  rw [afterStatus_quiet hquiet, placeSetup, devPoint_quiet (s := s.tick) hquiet]
  simp [State.supplied, State.tick, State.handOff]

theorem placeOut_quiet (hquiet : s.Quiet) (b : BufId) :
    placeOut b (afterStatus (afterStatus s)) = s.supplied [] [b] (s.handOff b).owner 3 := by
  rw [afterStatus_twice_quiet hquiet, placeOut, devPoint_quiet (s := s.supplied [] [] s.owner 2) hquiet]
  simp [State.supplied, State.tick, State.handOff]

/-- The transactions of the scan where AVSETUP has room for `r` ids and AVOUT for `r'`: 2 and 3 for an id that goes to
the one or the other, and 2 for the last look at both FIFOs. -/
def supplyCount (r r' : Nat) (ids : List BufId) : Nat :=
  2 * (ids.take r).length + 3 * ((ids.drop r).take r').length + if ids.drop (r + r') = [] then 0 else 2

theorem supplyCount_setup (r r' : Nat) (b : BufId) (ids : List BufId) :
    supplyCount (r + 1) r' (b :: ids) = 2 + supplyCount r r' ids := by
  simp only [supplyCount, Nat.add_right_comm r 1 r', List.take_succ_cons, List.drop_succ_cons, List.length_cons]
  omega

theorem supplyCount_out (r' : Nat) (b : BufId) (ids : List BufId) :
    supplyCount 0 (r' + 1) (b :: ids) = 3 + supplyCount 0 r' ids := by
  simp only [supplyCount, Nat.zero_add, List.drop_zero, List.take_succ_cons, List.drop_succ_cons, List.length_cons,
    List.take_zero]
  omega

/-- What the scan of ids on offer does where AVSETUP has room for `r` ids and AVOUT for `r'`: the first `r` ids go to
AVSETUP, the next `r'` to AVOUT, and of these ids the bits of the rest stay. -/
structure SharedOut (r r' : Nat) (ids : List BufId) (m m' : Word) (s t : State) : Prop where
  state : t = s.supplied (ids.take r) ((ids.drop r).take r') t.owner (supplyCount r r' ids)
  bits : ∀ c : BufId, m'.getLsbD c.val = true ↔ c ∈ ids.drop (r + r') ∨ (m.getLsbD c.val = true ∧ c ∉ ids)

/-- An id goes to one of the FIFOs exactly if it is not among the rest. -/
theorem mem_shares_iff (hnodup : ids.Nodup) (r r' : Nat) (b : BufId) :
    b ∈ ids.take r ∨ b ∈ (ids.drop r).take r' ↔ b ∈ ids ∧ b ∉ ids.drop (r + r') := by
  rw [← List.mem_append, ← List.take_add]
  have hdisjoint : b ∈ ids.take (r + r') → b ∉ ids.drop (r + r') :=
    fun htake hdrop => List.disjoint_take_drop hnodup le_rfl htake hdrop
  have hsplit : b ∈ ids ↔ b ∈ ids.take (r + r') ∨ b ∈ ids.drop (r + r') := by
    rw [← List.mem_append, List.take_append_drop]
  tauto

variable {r r' : Nat} {m' : Word}

theorem SharedOut.nil : SharedOut r r' [] m m s s where
  state := by simp [State.supplied, supplyCount]
  bits c := by simp

theorem SharedOut.full (hquiet : s.Quiet) (hm : ∀ c ∈ b :: ids, m.getLsbD c.val = true) :
    SharedOut 0 0 (b :: ids) m m s (afterStatus (afterStatus s)) where
  state := by rw [afterStatus_twice_quiet hquiet]; rfl
  bits c := by
    have := hm c
    rw [List.drop_zero]
    tauto

/-- Once its bit is cleared, `b` counts as one of the scanned ids. -/
theorem or_withoutBit_iff (c : BufId) (rest : List BufId) :
    c ∈ rest ∨ ((withoutBit m b).getLsbD c.val = true ∧ c ∉ ids) ↔
      c ∈ rest ∨ (m.getLsbD c.val = true ∧ c ∉ b :: ids) := by
  rw [getLsbD_withoutBit, List.mem_cons, not_or, Bool.and_eq_true_iff, decide_eq_true_iff, and_assoc]

theorem SharedOut.setup (hquiet : s.Quiet)
    (h : SharedOut r r' ids (withoutBit m b) m' (placeSetup b (afterStatus s)) t) :
    SharedOut (r + 1) r' (b :: ids) m m' s t where
  state := by
    rw [supplyCount_setup]
    conv_lhs => rw [h.state, placeSetup_quiet hquiet, supplied_supplied]
    rfl
  bits c := by rw [h.bits, Nat.add_right_comm, List.drop_succ_cons, or_withoutBit_iff]

theorem SharedOut.out (hquiet : s.Quiet)
    (h : SharedOut 0 r' ids (withoutBit m b) m' (placeOut b (afterStatus (afterStatus s))) t) :
    SharedOut 0 (r' + 1) (b :: ids) m m' s t where
  state := by
    rw [supplyCount_out]
    conv_lhs => rw [h.state, placeOut_quiet hquiet, supplied_supplied]
    rfl
  bits c := by rw [h.bits, Nat.zero_add, Nat.zero_add, List.drop_succ_cons, or_withoutBit_iff]

/-- With no link step the scan of ids on offer fills AVSETUP and then AVOUT. -/
theorem Offered.scanIds_sharedOut (h : Offered ids m s) (hquiet : s.Quiet)
    (hsetup : s.avSetup.length + r = s.params.avSetupCap) (hout : s.avOut.length + r' = s.params.avOutCap)
    (hscan : scanIds ids m s = .next (m', t)) : SharedOut r r' ids m m' s t := by
  induction ids generalizing m s r r' with
  | nil =>
    cases hscan
    exact .nil
  | cons b ids ih =>
    have hread := afterStatus_quiet hquiet
    have hread' := afterStatus_twice_quiet hquiet
    match r, r' with
    | r + 1, r' =>
      have hroom : (afterStatus s).avSetup.length < s.params.avSetupCap := by
        rw [hread, tick_avSetup]
        omega
      rw [h.scanIds_setup hroom] at hscan
      have hnext := h.read.setup (by simpa using hroom)
      refine .setup hquiet (ih hnext ?_ ?_ ?_ hscan) <;> rw [placeSetup_quiet hquiet]
      · exact hquiet
      · simpa [Nat.add_comm 1, Nat.add_assoc] using hsetup
      · simpa using hout
    | 0, r' + 1 =>
      have hfull : (afterStatus s).avSetup.length = s.params.avSetupCap := by rwa [hread, tick_avSetup]
      have hroom : (afterStatus (afterStatus s)).avOut.length < s.params.avOutCap := by
        rw [hread', supplied_avOut, List.append_nil]
        omega
      rw [h.scanIds_out hfull hroom] at hscan
      have hnext := h.read.read.out (by simpa using hroom)
      refine .out hquiet (ih hnext ?_ ?_ ?_ hscan) <;> rw [placeOut_quiet hquiet]
      · exact hquiet
      · simpa using hsetup
      · simpa [Nat.add_comm 1, Nat.add_assoc] using hout
    | 0, 0 =>
      have hfull : (afterStatus s).avSetup.length = s.params.avSetupCap := by rwa [hread, tick_avSetup]
      have hfull' : (afterStatus (afterStatus s)).avOut.length = s.params.avOutCap := by
        rwa [hread', supplied_avOut, List.append_nil]
      rw [h.scanIds_full hfull hfull'] at hscan
      cases hscan
      exact .full hquiet h.marked

end

/-! ### The operation (R200) -/

section
variable {bitmap : Nat} {s : State}

theorem getLsbD_bitmap (bitmap : Nat) (b : BufId) : (BitVec.ofNat 32 bitmap).getLsbD b.val = bitmap.testBit b.val := by
  rw [BitVec.getLsbD_ofNat, decide_eq_true b.isLt, Bool.true_and]

/-- The ids a caller offers, in ascending order. -/
abbrev offeredIds (bitmap : Nat) : List BufId := (List.finRange 32).filter fun b => bitmap.testBit b.val

theorem mem_offeredIds {b : BufId} : b ∈ offeredIds bitmap ↔ bitmap.testBit b.val = true := by simp [offeredIds]

/-- A caller that meets R201 has its ids on offer. -/
theorem offered_offeredIds (hp : s.params.Ok) (hq : s.QueuesInRange)
    (hsw : ∀ b : BufId, bitmap.testBit b.val = true → s.ownerOf b = .sw) :
    Offered (offeredIds bitmap) (BitVec.ofNat 32 bitmap) s where
  nodup := (List.nodup_finRange 32).filter _
  marked b hb := (getLsbD_bitmap bitmap b).trans (mem_offeredIds.1 hb)
  sw b hb := hsw b (mem_offeredIds.1 hb)
  params := hp
  queues := hq

/-- The operation is the scan of the ids the caller offers. -/
theorem exec_supplyBuffers (hfits : bitmap < 4294967296) (s : State) :
    exec (.supplyBuffers bitmap) s =
      andThen (scanIds (offeredIds bitmap) (BitVec.ofNat 32 bitmap) s) fun p => .next (p.2.give [p.1]) := by
  have hscan : supplyScan (List.range 32) (BitVec.ofNat 32 bitmap) s =
      scanIds (offeredIds bitmap) (BitVec.ofNat 32 bitmap) s := by
    rw [← List.map_coe_finRange_eq_range]
    refine (scanIds_filter (List.nodup_finRange 32)).trans ?_
    simp only [getLsbD_bitmap]
  rw [exec, execSupplyBuffers, if_pos ((fitsU32_iff bitmap).2 hfits), hscan]

/-- The operation completes, and its scan hands over free ids only and, with no link step, fills AVSETUP first. -/
theorem exec_supplyBuffers_next (hfits : bitmap < 4294967296) (hp : s.params.Ok) (hq : s.QueuesInRange)
    (hsw : ∀ b : BufId, bitmap.testBit b.val = true → s.ownerOf b = .sw) :
    ∃ m t, exec (.supplyBuffers bitmap) s = .next (t.give [m]) ∧ Supplied (BitVec.ofNat 32 bitmap) m s t ∧
      (s.Quiet → SharedOut (s.params.avSetupCap - s.avSetup.length) (s.params.avOutCap - s.avOut.length)
        (offeredIds bitmap) (BitVec.ofNat 32 bitmap) m s t) := by
  have hoffered := offered_offeredIds hp hq hsw
  obtain ⟨m, t, hscan, hsupplied⟩ := hoffered.scanIds_supplied
  obtain ⟨hout, hsetup, -⟩ := hq
  refine ⟨m, t, ?_, hsupplied, fun hquiet => hoffered.scanIds_sharedOut hquiet (by omega) (by omega) hscan⟩
  rw [exec_supplyBuffers hfits, hscan, andThen_next]

end

/-- Settles O35: each part of the scan keeps to the free ids, whatever the link engine does before its transactions. -/
theorem supplyBuffersAssignsOnlyFree : Obligations.SupplyBuffersAssignsOnlyFree := by
  intro s bitmap hfits hp hq hsw
  obtain ⟨m, t, hexec, ⟨hframe, hcount, hsubset, howner⟩, hquiet⟩ := exec_supplyBuffers_next hfits hp hq hsw
  simp only [getLsbD_bitmap] at hsubset howner
  refine ⟨t.give [m], m, hexec, ?_, hcount, hsubset, howner, fun i _ hi => ?_⟩
  · have hgive : (t.give [m]).swPart = { t.swPart with results := [m] } := rfl
    rw [hgive, hframe, give_pc, State.done, Nat.add_sub_cancel' hcount]
    rfl
  · by_cases h : s.Quiet
    · rw [give_intrState, (hquiet h).state] at hi
      exact .inl hi
    · exact .inr h

/-- Settles O34: with no link step the FIFOs only fill, so the ids go to AVSETUP up to its capacity, then to AVOUT. -/
theorem supplyBuffersQuiet : Obligations.SupplyBuffersQuiet := by
  refine ⟨fun p v x => decode_operation p 8 (by decide) v x, fun s bitmap hfits hquiet hp hq hsw => ?_⟩
  intro ids room setup out rest
  obtain ⟨m, t, hexec, hsupplied, hshared⟩ := exec_supplyBuffers_next hfits hp hq hsw
  obtain ⟨hstate, hbits⟩ := hshared hquiet
  have hrest : ∀ b : BufId, m.getLsbD b.val = decide (b ∈ rest) := fun b => by
    rw [Bool.eq_iff_iff, hbits, decide_eq_true_iff, getLsbD_bitmap, mem_offeredIds]
    tauto
  refine ⟨t.give [m], m, hexec, congrArg (State.give · [m]) hstate, fun b => ?_, hrest⟩
  rw [ownerOf_give, hsupplied.owner]
  refine if_congr ?_ rfl rfl
  rw [hrest, decide_eq_false_iff_not, getLsbD_bitmap, ← mem_offeredIds]
  exact (mem_shares_iff ((List.nodup_finRange 32).filter _) _ _ b).symm

end Sys2Proof.Machine

/-! SUPPORT. The endpoint configurator (R220 to R223): what an operation performs for every schedule, said by the state
it reaches with no link step; the read-modify-write idiom; and what the link engine can do to the stall bitmaps between
the transactions of `set_ep_stalling`. -/

namespace Sys2Proof.Machine

/-! ### An operation's state up to the link engine (R326) -/

/-- `t` is `u` in all that the link engine never writes, and in everything where `s` has no link step scheduled. -/
structure Agrees (s t u : State) : Prop where
  frame : t.swPart = u.swPart
  quiet : s.Quiet → t = u
  sched : u.sched = s.sched

/-- The outcome `o` of transactions performed from `s` on is a next state that agrees with `u`. -/
def Performs (o : Host.Outcome State Fault Refusal) (s u : State) : Prop := ∃ t, o = .next t ∧ Agrees s t u

section
variable {s t u : State} {o : Host.Outcome State Fault Refusal}

theorem Agrees.refl (s : State) : Agrees s s s := ⟨rfl, fun _ => rfl, rfl⟩

theorem Performs.andThen {u' : State} {f : State → Host.Outcome State Fault Refusal} (h : Performs o s u)
    (hf : ∀ t, Agrees s t u → Performs (f t) s u') : Performs (andThen o f) s u' := by
  obtain ⟨t, rfl, ht⟩ := h
  exact hf t ht

theorem Agrees.returnOk (h : Agrees s t u) : Performs (returnOk t) s (u.give [statusOk]) :=
  ⟨_, rfl, congrArg (fun p : SwPart => { p with results := [statusOk] }) h.frame,
    fun hquiet => congrArg (State.give · [statusOk]) (h.quiet hquiet), h.sched⟩

theorem Performs.completes {i : Instr} {n : Nat} {results : List Word} {after : State} (h : Performs (exec i s) s u)
    (hu : u = after.done n results := by simp [State.done, State.tick, State.give, statusOk, epMask]) :
    Completes i s n results after := by
  obtain ⟨t, hexec, ht⟩ := h
  exact ⟨t, hexec, hu ▸ ht.frame, hu ▸ ht.quiet⟩

/-! ### The read-modify-write idiom (R122) -/

/-- The state that the write of a read-modify-write meets: the read is performed and both interleaving points are
past. -/
def modifyPoint (s : State) : State := devPoint (devPoint s).tick

theorem modifyPoint_quiet (h : s.Quiet) : modifyPoint s = s.tick := by
  rw [modifyPoint, devPoint_quiet h, devPoint_quiet (s := s.tick) h]

theorem swPart_tick_congr (h : t.swPart = u.swPart) : t.tick.swPart = u.tick.swPart :=
  congrArg (fun p : SwPart => { p with pc := { p.pc with t := p.pc.t + 1 } }) h

theorem swPart_modifyPoint (s : State) : (modifyPoint s).swPart = s.tick.swPart :=
  (devPoint_frame _).1.trans (swPart_tick_congr (devPoint_frame s).1)

/-- The two transactions of a register whose read changes nothing. -/
theorem modify_next {r : Reg} {f : Word → Word} {v : Word} (hread : regRead r (devPoint s) = .next (v, devPoint s))
    (hwrite : regWrite r (f v) (modifyPoint s) = .next t) : modify r f s = .next t.tick := by
  rw [modifyPoint] at hwrite
  rw [modify, devRead, busRead, hread, andThen_next, andThen_next, devWrite, busWrite, hwrite, andThen_next]

/-- `e x y` is what a read-modify-write that reads in `x` makes of `y`: the link engine's fields reach no others through
it, and it keeps the schedule. -/
structure ModifyEffect (e : State → State → State) : Prop where
  frame : ∀ {x x' y y' : State}, x.swPart = x'.swPart → y.swPart = y'.swPart → (e x y).swPart = (e x' y').swPart
  sched : ∀ x y, (e x y).sched = y.sched

theorem Agrees.modified {e : State → State → State} (he : ModifyEffect e) (h : Agrees s t u) :
    Agrees s (e (devPoint t) (modifyPoint t)).tick (e u u.tick).tick where
  frame := swPart_tick_congr (he.frame ((devPoint_frame t).1.trans h.frame)
    ((swPart_modifyPoint t).trans (swPart_tick_congr h.frame)))
  quiet hquiet := by
    have hu : u.Quiet := h.sched.trans hquiet
    rw [h.quiet hquiet, devPoint_quiet hu, modifyPoint_quiet hu]
  sched := (he.sched u u.tick).trans h.sched

/-! ### The per-endpoint bitmaps (R114, R122) -/

/-- `r` is a per-endpoint bitmap, its value masked by both its rules: `get` reads it and `put` stores it. -/
structure Bitmap (r : Reg) (get : State → Word) (put : Word → State → State) : Prop where
  read : ∀ s, regRead r s = .next (get s &&& epMask, s)
  write : ∀ v s, regWrite r v s = .next (put (v &&& epMask) s)
  effect : ∀ f : Word → Word, ModifyEffect fun x y => put (f (get x)) y

/-- A bitmap that the link engine never writes (R326). -/
theorem Bitmap.of_config {r : Reg} {get : State → Word} {put : Word → State → State} (getSw : SwPart → Word)
    (putSw : Word → SwPart → SwPart)
    (read : ∀ s, regRead r s = .next (get s &&& epMask, s) := by exact fun _ => rfl)
    (write : ∀ v s, regWrite r v s = .next (put (v &&& epMask) s) := by exact fun _ _ => rfl)
    (hget : ∀ s, get s = getSw s.swPart := by exact fun _ => rfl)
    (hput : ∀ w s, (put w s).swPart = putSw w s.swPart := by exact fun _ _ => rfl)
    (hsched : ∀ w s, (put w s).sched = s.sched := by exact fun _ _ => rfl) : Bitmap r get put where
  read := read
  write := write
  effect f := ⟨fun hx hy => by rw [hput, hput, hget, hget, hx, hy], fun _ _ => hsched _ _⟩

/-- A bitmap that the link engine may write, so that no value of it shows in the fields it never writes. -/
theorem Bitmap.of_link {r : Reg} {get : State → Word} {put : Word → State → State}
    (read : ∀ s, regRead r s = .next (get s &&& epMask, s) := by exact fun _ => rfl)
    (write : ∀ v s, regWrite r v s = .next (put (v &&& epMask) s) := by exact fun _ _ => rfl)
    (hput : ∀ w s, (put w s).swPart = s.swPart := by exact fun _ _ => rfl)
    (hsched : ∀ w s, (put w s).sched = s.sched := by exact fun _ _ => rfl) : Bitmap r get put where
  read := read
  write := write
  effect f := ⟨fun _ hy => by rw [hput, hput, hy], fun _ _ => hsched _ _⟩

theorem bitmap_epOutEnable : Bitmap .epOutEnable State.epOutEnable fun w s => { s with epOutEnable := w } :=
  .of_config SwPart.epOutEnable fun w p => { p with epOutEnable := w }

theorem bitmap_epInEnable : Bitmap .epInEnable State.epInEnable fun w s => { s with epInEnable := w } :=
  .of_config SwPart.epInEnable fun w p => { p with epInEnable := w }

theorem bitmap_rxEnableSetup : Bitmap .rxEnableSetup State.rxEnableSetup fun w s => { s with rxEnableSetup := w } :=
  .of_config SwPart.rxEnableSetup fun w p => { p with rxEnableSetup := w }

theorem bitmap_rxEnableOut : Bitmap .rxEnableOut State.rxEnableOut fun w s => { s with rxEnableOut := w } :=
  .of_config SwPart.rxEnableOut fun w p => { p with rxEnableOut := w }

theorem bitmap_outIso : Bitmap .outIso State.outIso fun w s => { s with outIso := w } :=
  .of_config SwPart.outIso fun w p => { p with outIso := w }

theorem bitmap_inIso : Bitmap .inIso State.inIso fun w s => { s with inIso := w } :=
  .of_config SwPart.inIso fun w p => { p with inIso := w }

theorem bitmap_outStall : Bitmap .outStall State.outStall fun w s => { s with outStall := w } := .of_link

theorem bitmap_inStall : Bitmap .inStall State.inStall fun w s => { s with inStall := w } := .of_link

theorem and_eq_of_reserved {w m : Word} (h : w &&& ~~~m = 0#32) : w &&& m = w :=
  calc w &&& m = (w &&& m) ||| (w &&& ~~~m) := by rw [h, BitVec.or_zero]
    _ = w &&& (m ||| ~~~m) := by rw [BitVec.and_or_distrib_left]
    _ = w := by rw [BitVec.or_not_self, BitVec.and_allOnes]

variable {r : Reg} {get : State → Word} {put : Word → State → State}

/-- What `SETCLR` stores is made of the value its read returned, not of the value its write meets. -/
theorem Bitmap.setClr_next (b : Bitmap r get put) (ep : EpId) (on : Bool) (s : State) : setClr r (bit ep.val) on s =
    .next (put (setEpBit (get (devPoint s) &&& epMask) ep on) (modifyPoint s)).tick := by
  have hmasked := and_eq_of_reserved (reserved_setEpBit (reserved_and_mask (get (devPoint s)) epMask) ep on)
  refine modify_next (b.read _) ?_
  rw [b.write]
  exact congrArg (fun w => Host.Outcome.next (put w (modifyPoint s))) hmasked

theorem Agrees.setClr (h : Agrees s t u) (b : Bitmap r get put) (ep : EpId) (on : Bool) :
    Performs (setClr r (bit ep.val) on t) s (put (setEpBit (get u &&& epMask) ep on) u.tick).tick :=
  ⟨_, b.setClr_next ep on t, h.modified (b.effect fun w => setEpBit (w &&& epMask) ep on)⟩

end

/-! ### The operations that set a bit of bitmaps (R220 to R222) -/

@[simp] theorem fitsBool_toNat (b : Bool) : fitsBool b.toNat = true := by cases b <;> rfl

@[simp] theorem fitsU8_endpoint (ep : EpId) : fitsU8 ep.val = true := (fitsU8_iff _).2 (by omega)

theorem not_twelve_le (ep : EpId) : ¬ 12 ≤ ep.val := by omega

theorem exec_configureOutEndpoint (ep : EpId) (enabled setup iso : Bool) (s : State) :
    exec (.configureOutEndpoint ep.val enabled.toNat setup.toNat iso.toNat) s =
      andThen (setClr .epOutEnable (bit ep.val) enabled s) fun s =>
      andThen (setClr .rxEnableSetup (bit ep.val) setup s) fun s =>
      andThen (setClr .rxEnableOut (bit ep.val) enabled s) fun s =>
      andThen (setClr .outIso (bit ep.val) iso s) returnOk := by
  rw [exec, execConfigureOutEndpoint, if_pos (by simp), if_neg (not_twelve_le ep)]
  simp

theorem exec_configureInEndpoint (ep : EpId) (enabled iso : Bool) (s : State) :
    exec (.configureInEndpoint ep.val enabled.toNat iso.toNat) s =
      andThen (setClr .epInEnable (bit ep.val) enabled s) fun s =>
      andThen (setClr .inIso (bit ep.val) iso s) returnOk := by
  rw [exec, execConfigureInEndpoint, if_pos (by simp), if_neg (not_twelve_le ep)]
  simp

/-- Settles O27: four read-modify-writes one after the other, each of a bitmap the link engine never writes. -/
theorem configureOutEndpoint : Obligations.ConfigureOutEndpoint := by
  refine ⟨fun p v x => decode_operation p 1 (by decide) v x, fun s ep enabled setup iso h12 hfits => ?_,
    fun s ep enabled setup iso => ?_⟩
  · rw [exec, execConfigureOutEndpoint, if_pos (by simp [hfits]), if_pos h12]
    rfl
  · have hperforms := ((Agrees.refl s).setClr bitmap_epOutEnable ep enabled).andThen fun _ h =>
      (h.setClr bitmap_rxEnableSetup ep setup).andThen fun _ h =>
      (h.setClr bitmap_rxEnableOut ep enabled).andThen fun _ h =>
      (h.setClr bitmap_outIso ep iso).andThen fun _ h => h.returnOk
    rw [← exec_configureOutEndpoint] at hperforms
    exact hperforms.completes

/-- Settles O28: two read-modify-writes one after the other, each of a bitmap the link engine never writes. -/
theorem configureInEndpoint : Obligations.ConfigureInEndpoint := by
  refine ⟨fun p v x => decode_operation p 2 (by decide) v x, fun s ep enabled iso h12 hfits => ?_,
    fun s ep enabled iso => ?_⟩
  · rw [exec, execConfigureInEndpoint, if_pos (by simp [hfits]), if_pos h12]
    rfl
  · have hperforms := ((Agrees.refl s).setClr bitmap_epInEnable ep enabled).andThen fun _ h =>
      (h.setClr bitmap_inIso ep iso).andThen fun _ h => h.returnOk
    rw [← exec_configureInEndpoint] at hperforms
    exact hperforms.completes

/-! ### The stall bitmaps between the transactions of `set_ep_stalling` (R222, R312, R391) -/

section
variable {ep : EpId} {on : Bool} {s : State} {k : Nat}

/-- The link engine clears no stall at the `k`-th coming interleaving point: a SETUP clears none, or no step is due. -/
def StallsKept (s : State) (k : Nat) : Prop := s.params.setupClearsStall = false ∨ ∀ g ∈ s.sched[k]?, g = []

theorem StallsKept.devPoint (h : StallsKept s (k + 1)) : StallsKept (devPoint s) k := by
  simpa [StallsKept] using h

theorem devPoint_stalls (h : StallsKept s 0) :
    (devPoint s).outStall = s.outStall ∧ (devPoint s).inStall = s.inStall := by
  rcases h with hclears | hidle
  · exact (devPoint_le s).stall hclears
  · rw [Machine.devPoint]
    split
    next => exact ⟨rfl, rfl⟩
    next g rest hsched =>
      obtain rfl := hidle g (by simp [hsched])
      exact ⟨rfl, rfl⟩

theorem modifyPoint_stalls (h0 : StallsKept s 0) (h1 : StallsKept s 1) :
    (modifyPoint s).outStall = s.outStall ∧ (modifyPoint s).inStall = s.inStall := by
  have hread := devPoint_stalls h0
  have hwrite := devPoint_stalls (s := (devPoint s).tick) h1.devPoint
  exact ⟨hwrite.1.trans hread.1, hwrite.2.trans hread.2⟩

/-- The state after the two transactions on OUT_STALL. -/
def outStallSet (ep : EpId) (on : Bool) (s : State) : State :=
  State.tick { modifyPoint s with outStall := setEpBit ((devPoint s).outStall &&& epMask) ep on }

/-- The state after the two transactions on IN_STALL. -/
def inStallSet (ep : EpId) (on : Bool) (s : State) : State :=
  State.tick { modifyPoint s with inStall := setEpBit ((devPoint s).inStall &&& epMask) ep on }

theorem StallsKept.outStallSet (h : StallsKept s (k + 2)) : StallsKept (outStallSet ep on s) k :=
  StallsKept.devPoint (s := (Machine.devPoint s).tick) h.devPoint

theorem exec_setEpStalling (ep : EpId) (on : Bool) (s : State) :
    exec (.setEpStalling ep.val on.toNat) s =
      andThen (setClr .outStall (bit ep.val) on s) fun s => andThen (setClr .inStall (bit ep.val) on s) returnOk := by
  rw [exec, execSetEpStalling, if_pos (by simp), if_neg (not_twelve_le ep)]
  simp

theorem exec_setEpStalling_next (ep : EpId) (on : Bool) (s : State) :
    exec (.setEpStalling ep.val on.toNat) s = .next ((inStallSet ep on (outStallSet ep on s)).give [statusOk]) := by
  rw [exec_setEpStalling, bitmap_outStall.setClr_next, andThen_next, bitmap_inStall.setClr_next]
  rfl

/-- What the link engine does at point 1, between the read and the write of OUT_STALL, leaves no trace in it. -/
theorem outStall_stallsSet (h0 : StallsKept s 0) (h2 : StallsKept s 2) (h3 : StallsKept s 3) :
    (inStallSet ep on (outStallSet ep on s)).outStall = setEpBit (s.outStall &&& epMask) ep on :=
  calc (inStallSet ep on (outStallSet ep on s)).outStall
      = (outStallSet ep on s).outStall := (modifyPoint_stalls h2.outStallSet h3.outStallSet).1
    _ = setEpBit (s.outStall &&& epMask) ep on := by rw [outStallSet, tick_outStall, (devPoint_stalls h0).1]

/-- What the link engine does at point 3, between the read and the write of IN_STALL, leaves no trace in it. -/
theorem inStall_stallsSet (h0 : StallsKept s 0) (h1 : StallsKept s 1) (h2 : StallsKept s 2) :
    (inStallSet ep on (outStallSet ep on s)).inStall = setEpBit (s.inStall &&& epMask) ep on := by
  have hread : (devPoint (outStallSet ep on s)).inStall = s.inStall :=
    (devPoint_stalls h2.outStallSet).2.trans (modifyPoint_stalls h0 h1).2
  rw [inStallSet, tick_inStall, hread]

theorem epBit_setEpBit_masked (w : Word) {ep ep' : EpId} (h : ep' ≠ ep) (on : Bool) :
    epBit (setEpBit (w &&& epMask) ep on) ep' = epBit w ep' := by
  rw [epBit_setEpBit, if_neg h, epBit_and_epMask, epBit]

end

/-- Settles O29: a write stores what its read returned, so a stall cleared in between is set again. -/
theorem setEpStalling : Obligations.SetEpStalling := by
  refine ⟨fun p v x => decode_operation p 3 (by decide) v x, fun s ep on h12 hfits => ?_,
    fun s ep on => ⟨?_, ?_, ?_⟩⟩
  · rw [exec, execSetEpStalling, if_pos (by simp [hfits]), if_pos h12]
    rfl
  · have hperforms := ((Agrees.refl s).setClr bitmap_outStall ep on).andThen fun _ h =>
      (h.setClr bitmap_inStall ep on).andThen fun _ h => h.returnOk
    rw [← exec_setEpStalling] at hperforms
    exact hperforms.completes
  · intro t ht hclears
    cases (exec_setEpStalling_next ep on s).symm.trans ht
    exact ⟨outStall_stallsSet (.inl hclears) (.inl hclears) (.inl hclears),
      inStall_stallsSet (.inl hclears) (.inl hclears) (.inl hclears)⟩
  · intro t ep' n image cancel outToggle inToggle hne ht
    cases (exec_setEpStalling_next ep on s).symm.trans ht
    refine ⟨fun hsched => ?_, fun hsched => ?_⟩
    · have hidle : ∀ k ≠ 1, StallsKept s k := fun k hk => .inr (by match k with | 0 | k + 2 => simp [hsched])
      rw [give_outStall, outStall_stallsSet (hidle 0 (by decide)) (hidle 2 (by decide)) (hidle 3 (by decide)),
        epBit_setEpBit_masked _ hne]
    · have hidle : ∀ k < 3, StallsKept s k := fun k hk => .inr (by interval_cases k <;> simp [hsched])
      rw [give_inStall, inStall_stallsSet (hidle 0 (by decide)) (hidle 1 (by decide)) (hidle 2 (by decide)),
        epBit_setEpBit_masked _ hne]

/-! ### The device address (R223) -/

theorem address_masked {address : Nat} (h : address < 128) :
    (BitVec.ofNat 32 address <<< 16) &&& usbctrlMask = BitVec.ofNat 32 address <<< 16 := by
  have hall : ∀ a : Fin 128, (BitVec.ofNat 32 a.val <<< 16) &&& usbctrlMask = BitVec.ofNat 32 a.val <<< 16 := by
    decide
  exact hall ⟨address, h⟩

/-- USBCTRL with Enable kept and the address in its field. -/
abbrev withAddress (v : Word) (address : Nat) : Word := (v &&& 1#32) ||| (BitVec.ofNat 32 address <<< 16)

theorem usbctrlAddr_masked (v : Word) {address : Nat} (h : address < 128) :
    usbctrlAddr (v &&& usbctrlMask) address = withAddress v address := by
  rw [usbctrlAddr, Nat.mod_eq_of_lt h, BitVec.and_assoc, show usbctrlMask &&& ~~~addressMask = 1#32 by decide]

theorem withAddress_masked (v : Word) {address : Nat} (h : address < 128) :
    withAddress v address &&& usbctrlMask = withAddress v address := by
  rw [withAddress, BitVec.and_or_distrib_right, address_masked h, BitVec.and_assoc,
    show 1#32 &&& usbctrlMask = 1#32 by decide]

theorem getLsbD_one_withAddress (v : Word) (address : Nat) : (withAddress v address).getLsbD 1 = false := by
  simp [withAddress]

theorem modify_usbctrl_address {address : Nat} (h : address < 128) (s : State) :
    modify .usbctrl (fun v => usbctrlAddr v address) s =
      .next (State.tick { modifyPoint s with usbctrl := withAddress (devPoint s).usbctrl address }) := by
  refine modify_next rfl ?_
  rw [usbctrlAddr_masked _ h, regWrite, getLsbD_one_withAddress, if_neg Bool.false_ne_true, withAddress_masked _ h]

theorem modifyEffect_address (address : Nat) :
    ModifyEffect fun x y => { y with usbctrl := withAddress x.usbctrl address } where
  frame hx hy := congrArg₂ (fun p q : SwPart => { q with usbctrl := withAddress p.usbctrl address }) hx hy
  sched _ _ := rfl

theorem exec_setDeviceAddress {address : Nat} (h : address < 128) (s : State) :
    exec (.setDeviceAddress address) s =
      andThen (modify .usbctrl (fun v => usbctrlAddr v address) s) returnOk := by
  rw [exec, execSetDeviceAddress, if_pos ((fitsU8_iff _).2 (by omega)), if_neg (by omega)]

/-- Settles O30: one read-modify-write of USBCTRL, which the link engine never writes. -/
theorem setDeviceAddress : Obligations.SetDeviceAddress := by
  refine ⟨fun p v x => decode_operation p 4 (by decide) v x, fun s address h128 hfits => ?_,
    fun s address h128 => ?_⟩
  · rw [exec, execSetDeviceAddress, if_pos (by simp [hfits]), if_pos h128]
    rfl
  · have hperforms := Performs.andThen ⟨_, modify_usbctrl_address h128 s,
      (Agrees.refl s).modified (modifyEffect_address address)⟩ fun _ h => h.returnOk
    rw [← exec_setDeviceAddress h128] at hperforms
    exact hperforms.completes

end Sys2Proof.Machine

/-! SUPPORT. Connection control, initialisation and the interrupt enables (R240 to R245): the single transactions of
`init` and `connected`, the read-modify-writes of USBCTRL and INTR_ENABLE, which the link engine never writes, and that
it only sets bits of INTR_STATE (R326). -/

namespace Sys2Proof.Machine

/-! ### What an operation performs in one transaction or one read-modify-write -/

section
variable {s t u : State}

theorem Agrees.give (h : Agrees s t u) (results : List Word) : Performs (.next (t.give results)) s (u.give results) :=
  ⟨_, rfl, congrArg (fun p : SwPart => { p with results := results }) h.frame,
    fun hquiet => congrArg (State.give · results) (h.quiet hquiet), h.sched⟩

/-- `e` is what one transaction makes of the state past its interleaving point: no field the link engine writes reaches
another through it, and it keeps the schedule. -/
theorem Agrees.transacted {e : State → State} (h : Agrees s t u)
    (hframe : ∀ {x y : State}, x.swPart = y.swPart → (e x).swPart = (e y).swPart)
    (hsched : ∀ x, (e x).sched = x.sched) : Agrees s (e (devPoint t)) (e u) where
  frame := hframe ((devPoint_frame t).1.trans h.frame)
  quiet hquiet := by rw [h.quiet hquiet, devPoint_quiet (h.sched.trans hquiet)]
  sched := (hsched u).trans h.sched

end

/-! ### `init` (R243) -/

/-- The write of `init` sets no bit above bit 0, so it is accepted (R190). -/
theorem devWrite_phyConfig_one (s : State) :
    devWrite .phyConfig 1#32 s = .next (State.tick { devPoint s with phyConfig := 1#32 }) := by
  rw [devWrite, busWrite, regWrite, if_neg (by decide), andThen_next]

theorem agrees_phyConfig (s : State) (v : Word) :
    Agrees s (State.tick { devPoint s with phyConfig := v }) (State.tick { s with phyConfig := v }) :=
  (Agrees.refl s).transacted (e := fun x => State.tick { x with phyConfig := v })
    (fun h => swPart_tick_congr (congrArg (fun p : SwPart => { p with phyConfig := v }) h)) fun _ => rfl

/-- Settles O26: one write of PHY_CONFIG, which the link engine never writes. -/
theorem initOperation : Obligations.InitOperation := by
  refine ⟨fun p v x => decode_operation p 0 (by decide) v x, fun s => ?_⟩
  have hperforms : Performs (exec .init s) s ((State.tick { s with phyConfig := 1#32 }).give [statusOk]) :=
    Performs.andThen ⟨_, devWrite_phyConfig_one s, agrees_phyConfig s 1#32⟩ fun _ h => h.returnOk
  exact hperforms.completes

/-! ### Enable (R240 to R242) -/

/-- A read-modify-write of USBCTRL that leaves Resume 0 is accepted (R150). -/
theorem modify_usbctrl {f : Word → Word} (hresume : ∀ v, (f (v &&& usbctrlMask)).getLsbD 1 = false) (s : State) :
    modify .usbctrl f s = .next (State.tick { modifyPoint s with
      usbctrl := f ((devPoint s).usbctrl &&& usbctrlMask) &&& usbctrlMask }) :=
  modify_next rfl (by rw [regWrite, hresume, if_neg Bool.false_ne_true])

theorem modifyEffect_usbctrl (f : Word → Word) : ModifyEffect fun x y => { y with usbctrl := f x.usbctrl } where
  frame hx hy := congrArg₂ (fun p q : SwPart => { q with usbctrl := f p.usbctrl }) hx hy
  sched _ _ := rfl

theorem performs_modify_usbctrl {f : Word → Word} (hresume : ∀ v, (f (v &&& usbctrlMask)).getLsbD 1 = false)
    (s : State) : Performs (andThen (modify .usbctrl f s) fun s => .next (s.give [])) s
      ((State.tick { s.tick with usbctrl := f (s.usbctrl &&& usbctrlMask) &&& usbctrlMask }).give []) :=
  Performs.andThen ⟨_, modify_usbctrl hresume s, (Agrees.refl s).modified
    (modifyEffect_usbctrl fun v => f (v &&& usbctrlMask) &&& usbctrlMask)⟩ fun _ h => h.give []

theorem and_or_absorb (v w : Word) : (v &&& w) ||| w = w := by
  ext i hi
  rw [BitVec.getElem_or, BitVec.getElem_and]
  cases w[i] <;> simp

/-- USBCTRL with Enable 1 and DeviceAddress kept (R27, R240). -/
theorem usbctrl_enabled (v : Word) :
    ((v &&& usbctrlMask) ||| 1#32) &&& usbctrlMask = (v &&& 0x007F0000#32) ||| 1#32 := by
  have hmask : usbctrlMask = 0x007F0000#32 ||| 1#32 := by decide
  calc ((v &&& usbctrlMask) ||| 1#32) &&& usbctrlMask
      = (v &&& usbctrlMask) ||| 1#32 := by
        rw [BitVec.and_or_distrib_right, BitVec.and_assoc, BitVec.and_self, show 1#32 &&& usbctrlMask = 1#32 by decide]
    _ = (v &&& 0x007F0000#32) ||| ((v &&& 1#32) ||| 1#32) := by
        rw [hmask, BitVec.and_or_distrib_left, BitVec.or_assoc]
    _ = (v &&& 0x007F0000#32) ||| 1#32 := by rw [and_or_absorb]

/-- USBCTRL with Enable 0 and DeviceAddress kept (R27, R241). -/
theorem usbctrl_disabled (v : Word) :
    ((v &&& usbctrlMask) &&& ~~~(1#32)) &&& usbctrlMask = v &&& 0x007F0000#32 := by
  rw [BitVec.and_assoc, BitVec.and_assoc, show usbctrlMask &&& (~~~(1#32) &&& usbctrlMask) = 0x007F0000#32 by decide]

theorem devRead_usbctrl (s : State) :
    devRead .usbctrl s = .next (s.usbctrl &&& usbctrlMask, (devPoint s).tick) := by
  rw [devRead, busRead, regRead, andThen_next, devPoint_usbctrl]

/-- What `connected` returns is bit 0 of the value read (R242). -/
theorem flag_enable (v : Word) :
    flag ((v &&& usbctrlMask).getLsbD 0) = if v.getLsbD 0 then 1#32 else 0#32 := by
  rw [BitVec.getLsbD_and, show usbctrlMask.getLsbD 0 = true by decide, Bool.and_true, flag]

theorem exec_connected (s : State) :
    exec .connected s = .next ((devPoint s).tick.give [if s.usbctrl.getLsbD 0 then 1#32 else 0#32]) := by
  rw [exec, execConnected, devRead_usbctrl, andThen_next, flag_enable]

/-- Settles O31: one read-modify-write or one read of USBCTRL, which the link engine never writes. -/
theorem connectDisconnectConnected : Obligations.ConnectDisconnectConnected := by
  refine ⟨fun p v x => ⟨decode_operation p 5 (by decide) v x, decode_operation p 6 (by decide) v x,
    decode_operation p 7 (by decide) v x⟩, fun s => ⟨?_, ?_, ?_⟩⟩
  · have hperforms := performs_modify_usbctrl (f := fun v => v ||| 1#32) (fun v => by simp [usbctrlMask]) s
    rw [usbctrl_enabled] at hperforms
    exact hperforms.completes (i := .connect)
  · have hperforms := performs_modify_usbctrl (f := fun v => v &&& ~~~(1#32)) (fun v => by simp [usbctrlMask]) s
    rw [usbctrl_disabled] at hperforms
    exact hperforms.completes (i := .disconnect)
  · have hread := (Agrees.refl s).transacted (e := State.tick) swPart_tick_congr fun _ => rfl
    have hperforms := hread.give [if s.usbctrl.getLsbD 0 then 1#32 else 0#32]
    rw [← exec_connected] at hperforms
    exact hperforms.completes

/-! ### The link engine only sets bits of INTR_STATE (R326) -/

section
variable {i : Nat} {s t : State}

@[simp] theorem intrState_clearStalls (s : State) (ep : EpId) : (clearStalls ep s).intrState = s.intrState := by
  unfold clearStalls
  split <;> rfl

@[simp] theorem intrState_setupCancel (s : State) (ep : EpId) (cancel : Bool) :
    (setupCancel ep cancel s).intrState = s.intrState := by
  unfold setupCancel
  dsimp only
  split <;> rfl

@[simp] theorem intrState_eventStatus (s : State) (k : EventKind) : (eventStatus k s).intrState = s.intrState := by
  cases k <;> rfl

theorem pending_setIntr (src : IntrSource) (h : s.intrState.getLsbD i = true) :
    (s.setIntr src).intrState.getLsbD i = true := by
  rw [setIntr_intrState, BitVec.getLsbD_or, h, Bool.true_or]

theorem pending_setIntrIf (c : Bool) (src : IntrSource) (h : s.intrState.getLsbD i = true) :
    (s.setIntrIf c src).intrState.getLsbD i = true := by
  cases c
  · exact h
  · exact pending_setIntr src h

/-- A received packet clears no pending bit (R310, R311). -/
theorem pending_receive (b : BufId) (n : Fin 65) (setup : Bool) (ep : EpId) (im : Vector Byte 64)
    (h : s.intrState.getLsbD i = true) : (receive b n setup ep im s).intrState.getLsbD i = true :=
  pending_setIntrIf _ _ (pending_setIntr _ h)

theorem devEffect_pending {d : DevStep} (hstep : devEffect d s = some t) (h : s.intrState.getLsbD i = true) :
    t.intrState.getLsbD i = true := by
  cases d with
  | rxSetup =>
    obtain ⟨-, hstep⟩ := Option.ite_none_right_eq_some.1 hstep
    split at hstep
    case h_1 => cases hstep
    case h_2 =>
      cases hstep
      dsimp only
      rw [intrState_setupCancel, intrState_clearStalls]
      exact pending_setIntrIf _ _ (pending_receive _ _ _ _ _ h)
  | rxOut =>
    obtain ⟨-, hstep⟩ := Option.ite_none_right_eq_some.1 hstep
    split at hstep
    case h_1 => cases hstep
    case h_2 =>
      cases hstep
      exact pending_setIntrIf _ _ (pending_receive _ _ _ _ _ h)
  | inStart =>
    obtain ⟨-, hstep⟩ := Option.ite_none_right_eq_some.1 hstep
    cases hstep
    exact h
  | inComplete | sof | level =>
    obtain ⟨-, hstep⟩ := Option.ite_none_right_eq_some.1 hstep
    cases hstep
    exact pending_setIntr _ h
  | inFail =>
    obtain ⟨-, hstep⟩ := Option.ite_none_right_eq_some.1 hstep
    cases hstep
    exact pending_setIntrIf _ _ h
  | event =>
    obtain ⟨-, hstep⟩ := Option.ite_none_left_eq_some.1 hstep
    cases hstep
    rw [intrState_eventStatus]
    exact pending_setIntr _ h

theorem devPoint_pending (h : s.intrState.getLsbD i = true) : (devPoint s).intrState.getLsbD i = true :=
  devPoint_keeps (P := fun s => s.intrState.getLsbD i = true)
    (fun _ _ _ hs hstep => devEffect_pending (devStep_eq_some.1 hstep).2 hs) (fun _ _ hs => hs) h

theorem modifyPoint_pending (h : s.intrState.getLsbD i = true) : (modifyPoint s).intrState.getLsbD i = true :=
  devPoint_pending (s := (devPoint s).tick) (devPoint_pending h)

end

/-! ### The interrupt enables (R244, R245) -/

/-- The state after the two transactions on INTR_ENABLE. -/
def intrEnableSet (f : Word → Word) (s : State) : State :=
  State.tick { modifyPoint s with intrEnable := f ((devPoint s).intrEnable &&& intrMask) &&& intrMask }

theorem modify_intrEnable (f : Word → Word) (s : State) : modify .intrEnable f s = .next (intrEnableSet f s) :=
  modify_next rfl rfl

theorem modifyEffect_intrEnable (f : Word → Word) :
    ModifyEffect fun x y => { y with intrEnable := f x.intrEnable } where
  frame hx hy := congrArg₂ (fun p q : SwPart => { q with intrEnable := f p.intrEnable }) hx hy
  sched _ _ := rfl

theorem agrees_intrEnableSet (f : Word → Word) (s : State) : Agrees s (intrEnableSet f s)
    (State.tick { s.tick with intrEnable := f (s.intrEnable &&& intrMask) &&& intrMask }) :=
  (Agrees.refl s).modified (modifyEffect_intrEnable fun v => f (v &&& intrMask) &&& intrMask)

theorem exec_interruptEnable {mask : Nat} (h : mask < 4294967296) (s : State) :
    exec (.interruptEnable mask) s = .next ((intrEnableSet (fun v => v ||| BitVec.ofNat 32 mask) s).give []) := by
  rw [exec, execInterruptEnable, if_pos ((fitsU32_iff _).2 h), modify_intrEnable, andThen_next]

theorem exec_interruptDisable {mask : Nat} (h : mask < 4294967296) (s : State) :
    exec (.interruptDisable mask) s =
      .next ((intrEnableSet (fun v => v &&& ~~~(BitVec.ofNat 32 mask)) s).give []) := by
  rw [exec, execInterruptDisable, if_pos ((fitsU32_iff _).2 h), modify_intrEnable, andThen_next]

theorem or_masked_twice (v w m : Word) : ((v &&& m) ||| w) &&& m = (v ||| w) &&& m := by
  rw [BitVec.and_or_distrib_right, BitVec.and_or_distrib_right, BitVec.and_assoc, BitVec.and_self]

theorem and_masked_twice (v w m : Word) : ((v &&& m) &&& w) &&& m = (v &&& w) &&& m := by
  rw [BitVec.and_assoc v m w, BitVec.and_comm m w, ← BitVec.and_assoc, BitVec.and_assoc, BitVec.and_self]

/-- Settles O32: one read-modify-write of INTR_ENABLE, which the link engine never writes, while it only sets bits of
INTR_STATE. -/
theorem interruptEnableDisable : Obligations.InterruptEnableDisable := by
  refine ⟨fun p v x => ⟨decode_operation p 14 (by decide) v x, decode_operation p 15 (by decide) v x⟩,
    fun s mask hmask => ⟨?_, ?_, ?_⟩⟩
  · have hperforms := (agrees_intrEnableSet (fun v => v ||| BitVec.ofNat 32 mask) s).give []
    rw [← exec_interruptEnable hmask, or_masked_twice] at hperforms
    exact hperforms.completes rfl
  · have hperforms := (agrees_intrEnableSet (fun v => v &&& ~~~(BitVec.ofNat 32 mask)) s).give []
    rw [← exec_interruptDisable hmask, and_masked_twice] at hperforms
    exact hperforms.completes rfl
  · rintro t ht i - hi
    have hpending : (modifyPoint s).intrState.getLsbD i = true := modifyPoint_pending hi
    rcases ht with ht | ht
    · cases (exec_interruptEnable hmask s).symm.trans ht
      exact hpending
    · cases (exec_interruptDisable hmask s).symm.trans ht
      exact hpending

end Sys2Proof.Machine

/-! SUPPORT. The copies with no link step due (R290, R291): they do not look at the availability queues, so they complete
for every software-owned buffer, whatever the queues name; and what stops them. -/

namespace Sys2Proof.Machine

/-! ### The availability queues -/

/-- The state with other availability queues. -/
def State.withQueues (out setup : List BufId) (s : State) : State := { s with avOut := out, avSetup := setup }

/-- Where `f` answers with no link step due, it neither reads nor writes the availability queues. -/
def QueueBlind (f : State → Host.Outcome State Fault Refusal) : Prop :=
  ∀ s t, s.Quiet → f s = .next t →
    t.Quiet ∧ ∀ out setup, f (s.withQueues out setup) = .next (t.withQueues out setup)

namespace QueueBlind

variable {f g : State → Host.Outcome State Fault Refusal}

theorem next : QueueBlind .next := by
  intro s t hquiet h
  cases h
  exact ⟨hquiet, fun _ _ => rfl⟩

theorem raise (r : FaultReason) : QueueBlind (Machine.raise r) := fun s t _ h => absurd h (raise_ne_next r s t)

theorem ite (c : Prop) [Decidable c] (hf : QueueBlind f) (hg : QueueBlind g) :
    QueueBlind fun s => if c then f s else g s := by
  split
  · exact hf
  · exact hg

theorem andThen (hf : QueueBlind f) (hg : QueueBlind g) : QueueBlind fun s => Machine.andThen (f s) g := by
  intro s t hquiet h
  obtain ⟨u, hu, ht⟩ := andThen_eq_next.1 h
  obtain ⟨hquiet', hf'⟩ := hf s u hquiet hu
  obtain ⟨hquiet'', hg'⟩ := hg u t hquiet' ht
  refine ⟨hquiet'', fun out setup => ?_⟩
  dsimp only
  rw [hf', andThen_next, hg']

/-- The bytes a copy takes from `MEM` do not depend on the queues. -/
theorem memory {α : Type} {rd : State → Host.Outcome α Fault Refusal} {f : α → State → Host.Outcome State Fault Refusal}
    (hrd : ∀ s a out setup, rd s = .next a → rd (s.withQueues out setup) = .next a) (hf : ∀ a, QueueBlind (f a)) :
    QueueBlind fun s => Machine.andThen (rd s) fun a => f a s := by
  intro s t hquiet h
  obtain ⟨a, ha, ht⟩ := andThen_eq_next.1 h
  obtain ⟨hquiet', hf'⟩ := hf a s t hquiet ht
  refine ⟨hquiet', fun out setup => ?_⟩
  dsimp only
  rw [hrd s a out setup ha, andThen_next, hf']

theorem memRead4 (addr : Nat) {f : Word → State → Host.Outcome State Fault Refusal} (hf : ∀ w, QueueBlind (f w)) :
    QueueBlind fun s => Machine.andThen (Machine.memRead4 addr s) fun w => f w s := by
  refine memory (fun s w out setup h => ?_) hf
  simp only [Machine.memRead4] at h ⊢
  split at h
  case isTrue hin => exact (if_pos hin).trans h
  case isFalse => exact absurd h (stuck_ne_next s w)

theorem memReadBytes (addr n : Nat) {f : List Byte → State → Host.Outcome State Fault Refusal}
    (hf : ∀ bytes, QueueBlind (f bytes)) :
    QueueBlind fun s => Machine.andThen (Machine.memReadBytes addr n s) fun bytes => f bytes s := by
  refine memory (fun s bytes out setup h => ?_) hf
  simp only [Machine.memReadBytes] at h ⊢
  split at h
  case isTrue hin => exact (if_pos hin).trans h
  case isFalse => exact absurd h (stuck_ne_next s bytes)

theorem memWriteBytes (addr : Nat) (bytes : List Byte) : QueueBlind (Machine.memWriteBytes addr bytes) := by
  induction bytes generalizing addr with
  | nil => exact next
  | cons v vs ih =>
    intro s t hquiet h
    simp only [Machine.memWriteBytes] at h ⊢
    split at h
    case isTrue hin =>
      obtain ⟨hquiet', h'⟩ := ih (addr + 1) { s with mem := Memory.set s.mem addr v } t hquiet h
      exact ⟨hquiet', fun out setup => (if_pos hin).trans (h' out setup)⟩
    case isFalse => exact absurd h (stuck_ne_next s t)

theorem memWrite4 (addr : Nat) (w : Word) : QueueBlind (Machine.memWrite4 addr w) := by
  intro s t hquiet h
  simp only [Machine.memWrite4] at h ⊢
  split at h
  case isTrue hin =>
    cases h
    exact ⟨hquiet, fun _ _ => if_pos hin⟩
  case isFalse => exact absurd h (stuck_ne_next s t)

theorem bufWrite (b : BufId) (k : WordIx) (w : Word) : QueueBlind (busWrite (Machine.bufWrite b k w)) := by
  intro s t hquiet h
  obtain ⟨u, hu, rfl⟩ := busWrite_eq_next.1 h
  rw [devPoint_quiet hquiet, Machine.bufWrite] at hu
  split at hu
  case isTrue => exact absurd hu (raise_ne_next _ s u)
  case isFalse hsw =>
    cases hu
    refine ⟨hquiet, fun out setup => busWrite_eq_next.2 ⟨(s.setBuffer b _).withQueues out setup, ?_, rfl⟩⟩
    rw [devPoint_quiet (s := s.withQueues out setup) hquiet]
    exact if_neg hsw

theorem bufRead (b : BufId) (k : WordIx) {f : Word → State → Host.Outcome State Fault Refusal}
    (hf : ∀ w, QueueBlind (f w)) :
    QueueBlind fun s => Machine.andThen (busRead (Machine.bufRead b k) s) fun p => f p.1 p.2 := by
  intro s t hquiet h
  obtain ⟨⟨w, u⟩, hu, ht⟩ := andThen_eq_next.1 h
  obtain ⟨u', hu', rfl⟩ := busRead_eq_next.1 hu
  rw [devPoint_quiet hquiet, Machine.bufRead] at hu'
  split at hu'
  case isTrue => exact absurd hu' (raise_ne_next _ s _)
  case isFalse hsw =>
    cases hu'
    obtain ⟨hquiet', hf'⟩ := hf _ s.tick t hquiet ht
    refine ⟨hquiet', fun out setup => ?_⟩
    have hread : busRead (Machine.bufRead b k) (s.withQueues out setup) =
        .next (s.bufWord b k, s.tick.withQueues out setup) := by
      refine busRead_eq_next.2 ⟨s.withQueues out setup, ?_, rfl⟩
      rw [devPoint_quiet (s := s.withQueues out setup) hquiet]
      exact if_neg hsw
    dsimp only
    rw [hread, andThen_next, hf']

theorem putWords (b : BufId) (data : Nat) (ks : List WordIx) : QueueBlind (Machine.putWords b data ks) := by
  induction ks with
  | nil => exact next
  | cons k ks ih => exact memRead4 _ fun w => (bufWrite b k w).andThen ih

theorem toDevice (buf data n : Nat) : QueueBlind (Machine.toDevice buf data n) :=
  ite _ (raise _) <| ite _ (raise _) <| (putWords _ data _).andThen <|
    ite _ next (memReadBytes _ _ fun _ => bufWrite _ _ _)

theorem getWords (b : BufId) (data : Nat) (ks : List WordIx) : QueueBlind (Machine.getWords b data ks) := by
  induction ks with
  | nil => exact next
  | cons k ks ih => exact bufRead b k fun w => (memWrite4 _ w).andThen ih

theorem fromDevice (buf data n : Nat) : QueueBlind (Machine.fromDevice buf data n) :=
  ite _ (raise _) <| ite _ (raise _) <| (getWords _ data _).andThen <|
    ite _ next (bufRead _ _ (f := fun w => Machine.memWriteBytes _ (wordBytes w _)) fun _ => memWriteBytes _ _)

/-- What holds with empty queues holds with the queues as they are. -/
theorem of_emptyQueues {s t : State} (hf : QueueBlind f) (hquiet : s.Quiet) (h : f (s.withQueues [] []) = .next t) :
    f s = .next (t.withQueues s.avOut s.avSetup) := (hf (s.withQueues [] []) t hquiet h).2 s.avOut s.avSetup

end QueueBlind

section
variable {b : BufId} {data n : Nat} {s : State}

/-! ### What the copies do -/

/-- A copy of no bytes performs no transaction, whatever its address. -/
theorem toDevice_zero (b : BufId) (data : Nat) (s : State) : toDevice b.val data 0 s = .next s := by
  rw [toDevice, if_neg (by simp [Config.maxPkt]), if_neg (by simp)]
  rfl

theorem fromDevice_zero (b : BufId) (data : Nat) (s : State) : fromDevice b.val data 0 s = .next s := by
  rw [fromDevice, if_neg (by simp [Config.maxPkt]), if_neg (by simp)]
  rfl

theorem Moved.quiet_of_quiet {t : State} (h : Moved b s t) (hquiet : s.Quiet) : t.Quiet := by
  rw [(h.quiet hquiet).1]
  exact hquiet

/-- The operations leave out the copy of a packet without data, which is no different (R260, R264). -/
theorem ite_toDevice (b : BufId) (data n : Nat) (s : State) :
    (if 0 < n then toDevice b.val data n s else .next s) = toDevice b.val data n s := by
  split
  case isTrue => rfl
  case isFalse h => rw [Nat.eq_zero_of_not_pos h, toDevice_zero]

theorem ite_fromDevice (b : BufId) (data n : Nat) (s : State) :
    (if 0 < n then fromDevice b.val data n s else .next s) = fromDevice b.val data n s := by
  split
  case isTrue => rfl
  case isFalse h => rw [Nat.eq_zero_of_not_pos h, fromDevice_zero]

/-- What a copy to a buffer leaves with no link step due, from what it does for every schedule. -/
theorem Moved.copied {t : State} (h : Moved b s t)
    (hsw : t.swPart = { s.swPart with pc := ⟨s.pc.op, s.pc.t + copyCount n⟩ }) (hquiet : s.Quiet) :
    t = ({ s with bufMem := t.bufMem } : State).done (copyCount n) s.results := by
  have hmem : t.mem = s.mem := congrArg SwPart.mem hsw
  have hpc : t.pc = ⟨s.pc.op, s.pc.t + copyCount n⟩ := congrArg SwPart.pc hsw
  rw [(h.quiet hquiet).1, hmem, hpc]
  rfl

/-- What a copy from a buffer leaves with no link step due, from what it does for every schedule. -/
theorem Moved.delivered {t : State} (h : Moved b s t)
    (hsw : t.swPart = { s.swPart with pc := ⟨s.pc.op, s.pc.t + copyCount n⟩, mem := t.mem })
    (hbuf : t.bufMem = s.bufMem) (hquiet : s.Quiet) :
    t = ({ s with mem := t.mem } : State).done (copyCount n) s.results := by
  have hpc : t.pc = ⟨s.pc.op, s.pc.t + copyCount n⟩ := congrArg SwPart.pc hsw
  rw [(h.quiet hquiet).1, hbuf, hpc]
  rfl

/-- A copy to a buffer with no link step due (R290): what `toDevice_next` says without a look at the queues. -/
theorem toDevice_quiet (hquiet : s.Quiet) (hn : n ≤ 64) (hdata : 0 < n → data % 4 = 0 ∧ s.ownerOf b = .sw)
    (hm : s.HasBytes data n) :
    ∃ t, toDevice b.val data n s = .next t ∧
      t = ({ s with bufMem := t.bufMem } : State).done (copyCount n) s.results ∧
      ∀ (b' : BufId) (j : ByteIx), t.bufByte b' j =
        if b' = b ∧ j.val < n then s.memByte (data + j.val)
        else if b' = b ∧ j.val < 4 * copyCount n then 0#8 else s.bufByte b' j := by
  rcases Nat.eq_zero_or_pos n with rfl | hpos
  · exact ⟨s, toDevice_zero b data s, rfl, fun b' j => by simp [copyCount]⟩
  · obtain ⟨halign, hsw⟩ := hdata hpos
    obtain ⟨t, ht, hmoved, hframe, hbytes⟩ := toDevice_next (s := s.withQueues [] []) (b := b) hn (fun _ => halign) hm
      hsw List.not_mem_nil List.not_mem_nil
    refine ⟨t.withQueues s.avOut s.avSetup, (QueueBlind.toDevice b.val data n).of_emptyQueues hquiet ht,
      congrArg (State.withQueues s.avOut s.avSetup) (hmoved.copied hframe hquiet), fun b' j => ?_⟩
    by_cases hb : b' = b
    · subst hb
      simp only [true_and]
      exact hbytes j
    · simp only [hb, false_and, if_false]
      exact bufByte_congr ((hmoved.quiet hquiet).2 b' hb) j

/-- The n bytes of a buffer delivered to `MEM`, byte by byte and outside the destination. -/
theorem memByte_delivered {t : State} (hn : n ≤ 64)
    (h : ∀ a : Nat, t.memByte a = if h : data ≤ a ∧ a < data + n then s.bufByte b ⟨a - data, by omega⟩
      else s.memByte a) :
    (∀ j : ByteIx, j.val < n → t.memByte (data + j.val) = s.bufByte b j) ∧
      ∀ a : Nat, a < data ∨ data + n ≤ a → t.memByte a = s.memByte a := by
  refine ⟨fun j hj => ?_, fun a ha => (h a).trans (dif_neg (by omega))⟩
  rw [h, dif_pos ⟨Nat.le_add_right _ _, Nat.add_lt_add_left hj _⟩]
  exact congrArg (s.bufByte b) (Fin.ext (Nat.add_sub_cancel_left _ _))

/-- A copy from a buffer with no link step due (R291): what `fromDevice_next` says without a look at the queues. -/
theorem fromDevice_quiet (hquiet : s.Quiet) (hn : n ≤ 64) (ha : 0 < n → data % 4 = 0) (hm : s.HasBytes data n)
    (ho : s.ownerOf b = .sw) (hw : Memory.wf s.mem = true) :
    ∃ t, fromDevice b.val data n s = .next t ∧
      t = ({ s with mem := t.mem } : State).done (copyCount n) s.results ∧
      (∀ j : ByteIx, j.val < n → t.memByte (data + j.val) = s.bufByte b j) ∧
      ∀ a : Nat, a < data ∨ data + n ≤ a → t.memByte a = s.memByte a := by
  obtain ⟨t, ht, hmoved, -, -, hframe, hbuf, hbytes⟩ := fromDevice_next (s := s.withQueues [] []) (b := b) hn ha hm
    ho List.not_mem_nil List.not_mem_nil hw
  exact ⟨t.withQueues s.avOut s.avSetup, (QueueBlind.fromDevice b.val data n).of_emptyQueues hquiet ht,
    congrArg (State.withQueues s.avOut s.avSetup) (hmoved.delivered hframe (hbuf hquiet) hquiet),
    memByte_delivered hn hbytes⟩

/-! ### What stops a copy (R290, R291) -/

theorem toDevice_misaligned (hpos : 0 < n) (hn : n ≤ 64) (h : data % 4 ≠ 0) (b : BufId) (s : State) :
    toDevice b.val data n s = raise .misalignedMemory s := by
  rw [toDevice, if_neg (by simp only [Config.maxPkt]; omega), if_pos ⟨hpos, h⟩]

theorem fromDevice_misaligned (hpos : 0 < n) (hn : n ≤ 64) (h : data % 4 ≠ 0) (b : BufId) (s : State) :
    fromDevice b.val data n s = raise .misalignedMemory s := by
  rw [fromDevice, if_neg (by simp only [Config.maxPkt]; omega), if_pos ⟨hpos, h⟩]

theorem fits_copy (hdata : data < 4294967296) (hn : n ≤ 64) (b : BufId) :
    (fitsU8 b.val && fitsU32 data && fitsU8 n) = true := by
  simp only [Bool.and_eq_true, fitsU8_iff, fitsU32_iff]
  omega

/-- A fault of `transfer_to_device` is one of its copy. -/
theorem fault_transferToDevice {f : Fault} (hdata : data < 4294967296) (hn : n ≤ 64)
    (h : exec (.transferToDevice b.val data n) s = .fault f) : toDevice b.val data n s = .fault f := by
  rw [exec, execTransferToDevice, if_pos (fits_copy hdata hn b), andThen_eq_fault] at h
  exact h.resolve_right nofun

/-- A fault of `transfer_from_device` is one of its copy. -/
theorem fault_transferFromDevice {f : Fault} (hdata : data < 4294967296) (hn : n ≤ 64)
    (h : exec (.transferFromDevice b.val data n) s = .fault f) : fromDevice b.val data n s = .fault f := by
  rw [exec, execTransferFromDevice, if_pos (fits_copy hdata hn b), andThen_eq_fault] at h
  exact h.resolve_right nofun

theorem wholeWords_nil (h : n < 4) : wholeWords n = [] := by rw [wholeWords, Nat.div_eq_of_lt h, List.take_zero]

theorem wholeWords_cons (h : 4 ≤ n) : ∃ ks, wholeWords n = 0 :: ks := by
  obtain ⟨m, hm⟩ : ∃ m, n / 4 = m + 1 := ⟨n / 4 - 1, by omega⟩
  exact ⟨_, by rw [wholeWords, hm, List.finRange_succ, List.take_succ_cons]⟩

theorem busWrite_owned (hquiet : s.Quiet) (ho : s.ownerOf b = .hw) (k : WordIx) (w : Word) :
    busWrite (bufWrite b k w) s = raise .ownershipViolation s := by
  rw [busWrite, devPoint_quiet hquiet, bufWrite, if_pos ho]
  rfl

/-- With no link step a copy to a hardware-owned buffer faults at its first word, whole or trailing. -/
theorem toDevice_owned (hquiet : s.Quiet) (ho : s.ownerOf b = .hw) (hpos : 0 < n) (hn : n ≤ 64)
    (halign : data % 4 = 0) (hm : s.HasBytes data (min n 4)) :
    toDevice b.val data n s = raise .ownershipViolation s := by
  have hbuf : Fin.ofNat 32 b.val = b := Fin.ext (Nat.mod_eq_of_lt b.isLt)
  rw [toDevice, if_neg (by simp only [Config.maxPkt]; omega), if_neg (by omega), hbuf]
  by_cases hfour : n < 4
  · have hspan : spanInMemory s.params (data + 4 * (n / 4)) (n % 4) = true :=
      spanInMemory_iff.2 fun i hi => by rw [Nat.div_eq_of_lt hfour]; exact hm i (by omega)
    rw [wholeWords_nil hfour, putWords, andThen_next, putTail, if_neg (by omega), memReadBytes, if_pos hspan,
      andThen_next, busWrite_owned hquiet ho]
  · obtain ⟨ks, hwords⟩ := wholeWords_cons (n := n) (by omega)
    have hspan : spanInMemory s.params (data + 4 * (0 : WordIx).val) 4 = true :=
      spanInMemory_iff.2 fun i hi => hm i (by omega)
    rw [hwords, putWords, memRead4, if_pos hspan, andThen_next, busWrite_owned hquiet ho]
    rfl

end

end Sys2Proof.Machine

/-! SUPPORT. Packet send (R260, R261): the word an IN record holds before and after Ready is set, the two writes of
CONFIGIN with the read between them, and what stops them. -/

namespace Sys2Proof.Machine

/-! ### The word of an IN record (R40, R118, R176) -/

section
variable {n : Nat} (buf : BufId)

theorem readyBit_configInWord (h : n < 128) (r : Bool) : readyBit (configInWord buf.val n r) = r := by
  have hsum := configInWord_toNat r buf.isLt h
  have hr := r.toNat_lt
  refine getLsbD_eq_of_bitField ?_
  simp only [bitField]
  omega

theorem bufIdOf_configInWord (h : n < 128) (r : Bool) : bufIdOf (configInWord buf.val n r) = buf := by
  have hsum := configInWord_toNat r buf.isLt h
  exact Fin.ext (by rw [bufIdOf_val, ← bitField_toNat, bitField]; omega)

theorem sizeField_configInWord (h : n < 128) (r : Bool) : (sizeField (configInWord buf.val n r)).toNat = n := by
  have hsum := configInWord_toNat r buf.isLt h
  have hr := r.toNat_lt
  rw [sizeField, ← bitField_toNat, bitField]
  omega

theorem pendingBit_configInWord (h : n < 128) (r : Bool) : pendingBit (configInWord buf.val n r) = false := by
  have hsum := configInWord_toNat r buf.isLt h
  have hr := r.toNat_lt
  refine getLsbD_eq_of_bitField (n := 30) (b := false) ?_
  simp only [bitField, Bool.toNat_false]
  omega

theorem configInWord_false_or_ready (size : Nat) :
    configInWord buf.val size false ||| 0x80000000#32 = configInWord buf.val size true := by
  have hflags : flag false <<< 31 = 0#32 ∧ flag true <<< 31 = 0x80000000#32 := by decide
  rw [configInWord, configInWord, hflags.1, hflags.2, BitVec.or_zero]

/-- A write stores every field of `configin` (R176). -/
theorem configInWord_stored (size : Nat) (r : Bool) :
    configInWord buf.val size r &&& configInWriteMask = configInWord buf.val size r := by
  have hbuf : ∀ b : Fin 32, BitVec.ofNat 32 b.val &&& configInWriteMask = BitVec.ofNat 32 b.val := by decide
  have hsize : ∀ k : Fin 128, (BitVec.ofNat 32 k.val <<< 8) &&& configInWriteMask = BitVec.ofNat 32 k.val <<< 8 := by
    decide
  have hready : ∀ r, (flag r <<< 31) &&& configInWriteMask = flag r <<< 31 := by decide
  rw [configInWord, BitVec.and_or_distrib_right, BitVec.and_or_distrib_right,
    hbuf ⟨buf.val % 32, Nat.mod_lt _ (by decide)⟩, hsize ⟨size % 128, Nat.mod_lt _ (by decide)⟩, hready]

/-- The word the Ready write carries: the record as read, with Ready added (R260). -/
abbrev readyWrite (buf : BufId) (n : Nat) (pending : Bool) : Word :=
  storedConfig (configInWord buf.val n false) pending ||| 0x80000000#32

/-- The Ready write stores the fields of `configin` with Ready, whatever Pending the read returned. -/
theorem storedConfig_readyWrite (n : Nat) (p q : Bool) :
    storedConfig (readyWrite buf n p) q = storedConfig (configInWord buf.val n true) q := by
  have hpending : (flag p <<< 30) &&& configInWriteMask = 0#32 := by revert p; decide
  have hready : 0x80000000#32 &&& configInWriteMask = 0x80000000#32 := by decide
  have hstored : readyWrite buf n p &&& configInWriteMask = configInWord buf.val n true := by
    rw [readyWrite, storedConfig, configInWord_stored, BitVec.and_or_distrib_right, BitVec.and_or_distrib_right,
      configInWord_stored, hpending, hready, BitVec.or_zero, configInWord_false_or_ready]
  rw [storedConfig, storedConfig, hstored, configInWord_stored]

theorem pendingBit_storedConfig (v : Word) (p : Bool) : pendingBit (storedConfig v p) = p := by
  simp [pendingBit, configInWriteMask]

theorem pendingBit_readyWrite (n : Nat) (p : Bool) : pendingBit (readyWrite buf n p) = p := by
  have hrecord := pendingBit_storedConfig (configInWord buf.val n false) p
  rw [pendingBit] at hrecord ⊢
  rw [readyWrite, BitVec.getLsbD_or, hrecord, show (0x80000000#32).getLsbD 30 = false by decide, Bool.or_false]

/-- The Ready write asks for the handoff of the packet's buffer (R176). -/
theorem readyWrite_fields (h : n < 128) (p : Bool) : readyBit (readyWrite buf n p) = true ∧
    bufIdOf (readyWrite buf n p) = buf ∧ (sizeField (readyWrite buf n p)).toNat = n := by
  rw [← readyBit_storedConfig _ p, ← bufIdOf_storedConfig _ p, ← sizeField_storedConfig _ p,
    storedConfig_readyWrite, readyBit_storedConfig, bufIdOf_storedConfig, sizeField_storedConfig]
  exact ⟨readyBit_configInWord buf h true, bufIdOf_configInWord buf h true, sizeField_configInWord buf h true⟩

theorem storedConfig_configInWord (n : Nat) (r p : Bool) : storedConfig (configInWord buf.val n r) p =
    configInWord buf.val n r ||| if p then 0x40000000#32 else 0#32 := by
  have hflag : flag p <<< 30 = if p then 0x40000000#32 else 0#32 := by revert p; decide
  rw [storedConfig, configInWord_stored, hflag]

end

/-! ### The writes of CONFIGIN inside an operation (R176) -/

section
variable {ep : EpId} {buf : BufId} {n : Nat} {s : State}

/-- A write of the endpoint's CONFIGIN passes its first two checks: the record is idle and no completion is due. -/
structure Writable (ep : EpId) (s : State) : Prop where
  idle : (readyBit (s.configOf ep) || sendingBit (s.configOf ep)) = false
  free : s.inOwnOf ep = none

/-- The link engine leaves an idle record alone. -/
theorem configOf_devPoint (h : (readyBit (s.configOf ep) || sendingBit (s.configOf ep)) = false) :
    (devPoint s).configOf ep = s.configOf ep := by
  obtain ⟨hready, hsending⟩ := Bool.or_eq_false_iff.1 h
  exact (devPoint_le s).idle ep hready hsending

theorem Writable.devPoint (h : Writable ep s) : Writable ep (devPoint s) where
  idle := by rw [configOf_devPoint h.idle]; exact h.idle
  free := (devPoint_inOwnOf s ep).trans h.free

theorem Writable.modifyPoint (h : Writable ep s) : Writable ep (modifyPoint s) :=
  Writable.devPoint (s := (Machine.devPoint s).tick) ⟨h.devPoint.idle, h.devPoint.free⟩

theorem Writable.configOf_modifyPoint (h : Writable ep s) : (Machine.modifyPoint s).configOf ep = s.configOf ep :=
  (configOf_devPoint (s := (Machine.devPoint s).tick) h.devPoint.idle).trans (configOf_devPoint h.idle)

/-- A read-modify-write of a register whose read changes nothing is its write. -/
theorem modify_of_read {r : Reg} {f : Word → Word} {v : Word}
    (hread : regRead r (devPoint s) = .next (v, devPoint s)) :
    modify r f s = andThen (regWrite r (f v) (modifyPoint s)) fun t => .next t.tick := by
  rw [modify, devRead, busRead, hread, andThen_next, andThen_next]
  rfl

/-- The record after the first write: BufferId and Size stored, Pending kept. -/
abbrev idsRecord (ep : EpId) (buf : BufId) (n : Nat) (s : State) : Word :=
  storedConfig (configInWord buf.val n false) (pendingBit (s.configOf ep))

/-- The state after the first write. -/
def idsStored (ep : EpId) (buf : BufId) (n : Nat) (s : State) : State :=
  ((devPoint s).setConfig ep (idsRecord ep buf n s)).tick

theorem devWrite_ids (h : Writable ep s) (hn : n < 128) :
    devWrite (.configIn ep) (configInWord buf.val n false) s = .next (idsStored ep buf n s) := by
  have hready := readyBit_configInWord buf hn false
  have hpending := pendingBit_configInWord buf hn false
  rw [devWrite, busWrite, regWrite, writeConfigIn_next h.devPoint.idle h.devPoint.free (by simp [hready]), andThen_next,
    assigned, if_neg (by simp [hready]), storeConfig_kept hpending, configOf_devPoint h.idle, idsStored]

theorem configOf_idsStored (ep : EpId) (buf : BufId) (n : Nat) (s : State) :
    (idsStored ep buf n s).configOf ep = idsRecord ep buf n s := configOf_setConfig_same _ ep _

theorem Writable.idsStored (h : Writable ep s) (hn : n < 128) : Writable ep (idsStored ep buf n s) where
  idle := by
    rw [configOf_idsStored, readyBit_storedConfig, readyBit_configInWord buf hn, sendingBit_storedConfig]
    rfl
  free := h.devPoint.free

/-- The Ready write inside the operation, by its rule (R260, R176). -/
theorem modify_ready (h : Writable ep s) (hn : n < 128) :
    modify (.configIn ep) (· ||| 0x80000000#32) (idsStored ep buf n s) =
      andThen (writeConfigIn ep (readyWrite buf n (pendingBit (s.configOf ep))) (modifyPoint (idsStored ep buf n s)))
        fun t => .next t.tick := by
  have hread : (devPoint (idsStored ep buf n s)).configOf ep &&& configInMask = idsRecord ep buf n s := by
    rw [configOf_devPoint (h.idsStored hn).idle, configOf_idsStored,
      and_eq_of_reserved (reserved_storedConfig _ _)]
  refine modify_of_read ?_
  rw [regRead, hread]

/-- The record handed to hardware: the owner, INOWN, CONFIGIN and, where Pending was 1, one draw. -/
def handedOver (ep : EpId) (buf : BufId) (c : Word) (drawn : Bool) (s : State) : State :=
  { s with draws := s.draws + if drawn then 1 else 0
           owner := s.owner.set buf.val .hw
           inOwn := s.inOwn.set ep.val (some buf)
           configIn := s.configIn.set ep.val c }

theorem bufMem_handedOver (ep : EpId) (buf : BufId) (c : Word) (drawn : Bool) (s : State) :
    (handedOver ep buf c drawn s).bufMem = s.bufMem := rfl

/-- A write that carries the record's own Pending keeps it at 0 and draws it at 1 (R176, log 8). -/
theorem storeConfig_of_pending {v : Word} (h : pendingBit v = pendingBit (s.configOf ep)) : storeConfig ep v s =
    ({ s with draws := s.draws + if pendingBit v then 1 else 0 } : State).setConfig ep
      (storedConfig v (pendingBit v && Config.freeBool s.draws)) := by
  cases hv : pendingBit v with
  | false => rw [storeConfig_kept hv, ← h, hv]; rfl
  | true => rw [storeConfig_drawn hv]; rfl

/-- A write with Ready that carries the record's own Pending hands its buffer over (R176). -/
theorem writeConfigIn_handedOver {v : Word} (h : Writable ep s) (hready : readyBit v = true)
    (hsize : (sizeField v).toNat ≤ 64) (ho : s.ownerOf (bufIdOf v) = .sw)
    (hpending : pendingBit v = pendingBit (s.configOf ep)) : writeConfigIn ep v s =
      .next (handedOver ep (bufIdOf v) (storedConfig v (pendingBit v && Config.freeBool s.draws)) (pendingBit v) s) := by
  rw [writeConfigIn_next h.idle h.free fun _ => ⟨hsize, ho⟩, assigned, if_pos hready,
    storeConfig_of_pending (s := (s.handOff (bufIdOf v)).setInOwn ep (some (bufIdOf v))) hpending]
  rfl

/-- The record after the Ready write. -/
abbrev readyRecord (ep : EpId) (buf : BufId) (n : Nat) (s : State) : Word :=
  storedConfig (configInWord buf.val n true) (pendingBit (s.configOf ep) && Config.freeBool s.draws)

/-- The state after the operation's three transactions with CONFIGIN. -/
def readyStored (ep : EpId) (buf : BufId) (n : Nat) (s : State) : State :=
  (handedOver ep buf (readyRecord ep buf n s) (pendingBit (s.configOf ep)) (modifyPoint (idsStored ep buf n s))).tick

theorem swPart_idsStored (ep : EpId) (buf : BufId) (n : Nat) (s : State) :
    (idsStored ep buf n s).swPart = s.tick.swPart := swPart_tick_congr (devPoint_frame s).1

theorem swPart_modifyPoint_idsStored (ep : EpId) (buf : BufId) (n : Nat) (s : State) :
    (modifyPoint (idsStored ep buf n s)).swPart = s.tick.tick.swPart :=
  (swPart_modifyPoint _).trans (swPart_tick_congr (swPart_idsStored ep buf n s))

theorem modify_ready_next (h : Writable ep s) (hn : n ≤ 64) (ho : s.ownerOf buf = .sw) :
    modify (.configIn ep) (· ||| 0x80000000#32) (idsStored ep buf n s) = .next (readyStored ep buf n s) := by
  have hn' : n < 128 := by omega
  have hids := h.idsStored (buf := buf) hn'
  have hframe := swPart_modifyPoint_idsStored ep buf n s
  obtain ⟨hready, hbuf, hsize⟩ := readyWrite_fields buf hn' (pendingBit (s.configOf ep))
  have hdraws : (modifyPoint (idsStored ep buf n s)).draws = s.draws := congrArg SwPart.draws hframe
  rw [modify_ready h hn', writeConfigIn_handedOver hids.modifyPoint hready (hsize.trans_le hn), hbuf,
    storedConfig_readyWrite, pendingBit_readyWrite, hdraws, andThen_next, readyStored]
  · rw [hbuf, ownerOf_of_swPart hframe]
    exact ho
  · rw [hids.configOf_modifyPoint, configOf_idsStored, pendingBit_storedConfig, pendingBit_readyWrite]

theorem handedOver_setConfig (c c' : Word) (drawn : Bool) (s : State) :
    handedOver ep buf c drawn (s.setConfig ep c') = handedOver ep buf c drawn s := by
  simp only [handedOver, State.setConfig, Vector.set_set]

/-- What the three transactions leave, with and without link steps before them. -/
theorem agrees_readyStored (ep : EpId) (buf : BufId) (n : Nat) (s : State) : Agrees s (readyStored ep buf n s)
    (handedOver ep buf (readyRecord ep buf n s) (pendingBit (s.configOf ep)) s.tick.tick).tick := by
  rw [← handedOver_setConfig _ (idsRecord ep buf n s)]
  have hids : Agrees s (idsStored ep buf n s) (s.setConfig ep (idsRecord ep buf n s)).tick :=
    (Agrees.refl s).transacted (e := fun x => (x.setConfig ep (idsRecord ep buf n s)).tick) swPart_tick_congr
      fun _ => rfl
  refine hids.modified (e := fun _ y => handedOver ep buf (readyRecord ep buf n s) (pendingBit (s.configOf ep)) y)
    ⟨fun _ hy => ?_, fun _ _ => rfl⟩
  exact congrArg (fun p : SwPart => { p with
    draws := p.draws + if pendingBit (s.configOf ep) then 1 else 0
    owner := p.owner.set buf.val .hw
    inOwn := p.inOwn.set ep.val (some buf) }) hy

/-- What the three transactions do to the fields the link engine never writes. -/
def SwPart.sent (ep : EpId) (buf : BufId) (drawn : Bool) (p : SwPart) : SwPart :=
  { p with pc := ⟨p.pc.op, p.pc.t + 3⟩
           draws := p.draws + if drawn then 1 else 0
           owner := p.owner.set buf.val .hw
           inOwn := p.inOwn.set ep.val (some buf) }

theorem swPart_readyStored (ep : EpId) (buf : BufId) (n : Nat) (s : State) :
    (readyStored ep buf n s).swPart = s.swPart.sent ep buf (pendingBit (s.configOf ep)) :=
  (agrees_readyStored ep buf n s).frame

theorem readyStored_quiet (h : s.Quiet) (ep : EpId) (buf : BufId) (n : Nat) : readyStored ep buf n s =
    { s with pc := ⟨s.pc.op, s.pc.t + 3⟩
             draws := s.draws + if pendingBit (s.configOf ep) then 1 else 0
             owner := s.owner.set buf.val .hw
             inOwn := s.inOwn.set ep.val (some buf)
             configIn := s.configIn.set ep.val (readyRecord ep buf n s) } := (agrees_readyStored ep buf n s).quiet h

theorem configOf_readyStored (ep : EpId) (buf : BufId) (n : Nat) (s : State) :
    (readyStored ep buf n s).configOf ep = readyRecord ep buf n s := configOf_setConfig_same _ ep _

/-- The buffer is in no availability queue, so the link engine receives nothing into it. -/
abbrev Spared (b : BufId) (s : State) : Prop := b ∉ s.avOut ∧ b ∉ s.avSetup

theorem Spared.devPoint (h : Spared buf s) : Spared buf (devPoint s) :=
  ⟨fun hmem => h.1 ((devPoint_le s).avOut.subset hmem), fun hmem => h.2 ((devPoint_le s).avSetup.subset hmem)⟩

theorem Spared.bufMem_devPoint (h : Spared buf s) : (Machine.devPoint s).bufMem[buf] = s.bufMem[buf] :=
  (devPoint_le s).buf buf h.1 h.2

theorem Spared.bufMem_modifyPoint (h : Spared buf s) : (modifyPoint s).bufMem[buf] = s.bufMem[buf] :=
  have htick : Spared buf (Machine.devPoint s).tick := h.devPoint
  htick.bufMem_devPoint.trans h.bufMem_devPoint

theorem Spared.bufMem_readyStored (h : Spared buf s) (ep : EpId) (n : Nat) :
    (readyStored ep buf n s).bufMem[buf] = s.bufMem[buf] := by
  have hids : Spared buf (idsStored ep buf n s) := h.devPoint
  rw [readyStored, tick_bufMem, bufMem_handedOver, hids.bufMem_modifyPoint]
  exact h.bufMem_devPoint

/-! ### The operation (R260) -/

/-- The transactions after the copy: BufferId and Size, then Ready. -/
def recordPacket (ep : EpId) (buf : BufId) (n : Nat) (s : State) : Host.Outcome State Fault Refusal :=
  andThen (devWrite (.configIn ep) (configInWord buf.val n false) s) fun s =>
    andThen (modify (.configIn ep) (· ||| 0x80000000#32) s) returnOk

theorem recordPacket_next (h : Writable ep s) (hn : n ≤ 64) (ho : s.ownerOf buf = .sw) :
    recordPacket ep buf n s = .next ((readyStored ep buf n s).give [0#32]) := by
  rw [recordPacket, devWrite_ids h (by omega), andThen_next, modify_ready_next h hn ho, andThen_next]
  rfl

theorem fits_send {buf ep data n : Nat} (hbuf : buf < 256) (hep : ep < 256) (hdata : data < 4294967296) (hn : n < 256) :
    (fitsU8 buf && fitsU8 ep && fitsU32 data && fitsU8 n) = true := by
  simp only [Bool.and_eq_true, fitsU8_iff, fitsU32_iff]
  exact ⟨⟨⟨hbuf, hep⟩, hdata⟩, hn⟩

/-- The operation is the copy, which is nothing for a packet without data, and then the record. -/
theorem exec_sendPacket {data : Nat} (hn : n ≤ 64) (hdata : data < 4294967296) (buf : BufId) (ep : EpId) (s : State) :
    exec (.sendPacket buf.val ep.val data n) s =
      andThen (toDevice buf.val data n s) (recordPacket ep buf n) := by
  have hfits := fits_send (buf := buf.val) (ep := ep.val) (n := n) (by omega) (by omega) hdata (by omega)
  have hrange : ¬ (32 ≤ buf.val ∨ 12 ≤ ep.val ∨ Config.maxPkt < n) := by simp only [Config.maxPkt]; omega
  have hep : Fin.ofNat 12 ep.val = ep := Fin.ext (Nat.mod_eq_of_lt ep.isLt)
  rw [exec, execSendPacket, if_pos hfits, if_neg hrange, ite_toDevice, hep]
  refine congrArg (andThen _) (funext fun t => ?_)
  simp only [recordPacket, modify, andThen_assoc]

/-! ### What stops the operation after its copy (R260, R343) -/

theorem recordPacket_busy (hquiet : s.Quiet)
    (h : (readyBit (s.configOf ep) || sendingBit (s.configOf ep)) = true) :
    recordPacket ep buf n s = refuse .inTransferBusy s := by
  rw [recordPacket, devWrite, busWrite, devPoint_quiet hquiet, regWrite, writeConfigIn_busy h]
  rfl

theorem recordPacket_uncollected (hquiet : s.Quiet)
    (hidle : (readyBit (s.configOf ep) || sendingBit (s.configOf ep)) = false) (h : s.inOwnOf ep ≠ none) :
    recordPacket ep buf n s = raise .uncollectedCompletion s := by
  rw [recordPacket, devWrite, busWrite, devPoint_quiet hquiet, regWrite, writeConfigIn_uncollected hidle h]
  rfl

theorem modifyPoint_idsStored_quiet (hquiet : s.Quiet) :
    modifyPoint (idsStored ep buf n s) = (s.setConfig ep (idsRecord ep buf n s)).tick.tick := by
  rw [idsStored, devPoint_quiet hquiet, modifyPoint_quiet (s := (s.setConfig ep _).tick) hquiet]

/-- With no link step the Ready write for a hardware-owned buffer faults once BufferId and Size are stored. -/
theorem recordPacket_owned (hquiet : s.Quiet) (h : Writable ep s) (hn : n ≤ 64) (ho : s.ownerOf buf = .hw) :
    recordPacket ep buf n s = raise .doubleHandoff (s.setConfig ep (idsRecord ep buf n s)).tick.tick := by
  have hn' : n < 128 := by omega
  have hids := (h.idsStored (buf := buf) hn').modifyPoint
  obtain ⟨hready, hbuf, hsize⟩ := readyWrite_fields buf hn' (pendingBit (s.configOf ep))
  rw [recordPacket, devWrite_ids h hn', andThen_next, modify_ready h hn']
  rw [modifyPoint_idsStored_quiet hquiet] at hids ⊢
  rw [writeConfigIn_owned hids.idle hids.free hready (hsize.trans_le hn) (by rw [hbuf]; exact ho)]
  rfl

end

/-- Settles O40: the copy leaves the record and the buffer's owner as they are, so both writes of CONFIGIN pass. -/
theorem sendPacket : Obligations.SendPacket := by
  refine ⟨fun p v x => decode_operation p 9 (by decide) v x, ?_⟩
  intro s buf ep data n hn hdata halign hmem howned howner hready hsending hfree pending after
  obtain ⟨hout, hsetup, -, -⟩ := howned.free howner
  obtain ⟨t, ht, hmoved, hframe, hbytes⟩ := toDevice_next hn halign hmem howner hout hsetup
  have hconfig : t.configOf ep = s.configOf ep := hmoved.idle ep hready hsending
  have hwritable : Writable ep t := ⟨by rw [hconfig, hready, hsending]; rfl,
    (congrArg (fun p : SwPart => p.inOwn[ep]) hframe).trans hfree⟩
  have howner' : t.ownerOf buf = .sw := (congrArg (fun p : SwPart => p.owner[buf]) hframe).trans howner
  have hspared : Spared buf t :=
    ⟨fun hmem => hout (hmoved.avOut.subset hmem), fun hmem => hsetup (hmoved.avSetup.subset hmem)⟩
  have hdraws : t.draws = s.draws := congrArg SwPart.draws hframe
  have hrecord : (readyStored ep buf n t).configOf ep = configInWord buf.val n true |||
      (if pending && Config.freeBool s.draws then 0x40000000#32 else 0#32) := by
    rw [configOf_readyStored, readyRecord, storedConfig_configInWord, hconfig, hdraws]
  refine ⟨(readyStored ep buf n t).give [0#32], ?_, ?_, hrecord, fun j => ?_, fun hquiet => ⟨?_, fun b j hb => ?_⟩⟩
  · rw [exec_sendPacket hn hdata, ht, andThen_next, recordPacket_next hwritable hn howner']
  · have hsent := swPart_readyStored ep buf n t
    rw [hframe, hconfig] at hsent
    exact congrArg (fun p : SwPart => { p with results := [0#32] }) hsent
  · exact (bufByte_congr (hspared.bufMem_readyStored ep n) j).trans (hbytes j)
  · have htquiet := hmoved.quiet_of_quiet hquiet
    obtain ⟨image, rfl⟩ : ∃ image, t = ({ s with bufMem := image } : State).done (copyCount n) s.results :=
      ⟨t.bufMem, hmoved.copied hframe hquiet⟩
    rw [configOf_give, configOf_readyStored, readyStored_quiet htquiet]
    rfl
  · rw [readyStored_quiet (hmoved.quiet_of_quiet hquiet)]
    exact bufByte_congr ((hmoved.quiet hquiet).2 b hb) j

/-- Settles O41: the copy comes first and stops by its own rule; past it each write of CONFIGIN has its checks. -/
theorem sendPacketStops : Obligations.SendPacketStops := by
  refine ⟨fun s buf ep data n hbuf hep hdata hsize hrange => ?_, fun s buf ep data n hdata hpos hn halign => ?_,
    fun s buf ep data n f hdata hn hf => ?_, fun s buf ep data n hdata hpos hn halign hmem hquiet howner => ?_,
    fun s buf ep data n hdata hn hcopy hmem hquiet => ?_⟩
  · rw [exec, execSendPacket, if_pos (fits_send hbuf hep hdata hsize)]
    exact if_pos hrange
  · rw [exec_sendPacket hn hdata, toDevice_misaligned hpos hn halign]
    rfl
  · rw [exec_sendPacket hn hdata, fault_transferToDevice hdata hn hf, andThen_fault]
  · rw [exec_sendPacket hn hdata, toDevice_owned hquiet howner hpos hn halign hmem]
    rfl
  · intro busy copied
    obtain ⟨t, ht, hstate, hbytes⟩ := toDevice_quiet (b := buf) hquiet hn hcopy hmem
    have htquiet : t.Quiet := by rw [hstate]; exact hquiet
    have hconfig : t.configOf ep = s.configOf ep := by rw [hstate]; rfl
    have hinOwn : t.inOwnOf ep = s.inOwnOf ep := by rw [hstate]; rfl
    have hcopied : copied t := ⟨hstate, hbytes⟩
    refine ⟨fun hbusy => ⟨t, hcopied, ?_⟩, fun hidle hin => ⟨t, hcopied, ?_⟩, fun hidle hfree hzero howner => ?_⟩
    · rw [exec_sendPacket hn hdata, ht, andThen_next, recordPacket_busy htquiet (by rwa [hconfig])]
      rfl
    · rw [exec_sendPacket hn hdata, ht, andThen_next,
        recordPacket_uncollected htquiet (by rwa [hconfig]) (by rwa [hinOwn])]
      rfl
    · subst hzero
      rw [exec_sendPacket hn hdata, toDevice_zero, andThen_next,
        recordPacket_owned hquiet ⟨hidle, hfree⟩ (by decide) howner]
      exact ⟨_, rfl, congrArg (fun c => s.configIn.set ep.val c) (storedConfig_configInWord buf 0 false _), rfl, rfl⟩

end Sys2Proof.Machine

/-! SUPPORT. Completion tracking (R262, R263): the one read of IN_SENT, which gives back every completed buffer, and the
clearing write and the read of CONFIGIN for the lowest endpoint it shows. -/

namespace Sys2Proof.Machine

/-! ### The lowest endpoint of a bitmap (R262) -/

/-- `e` is the lowest endpoint whose bit is set. -/
abbrev LowestBit (w : Word) (e : EpId) : Prop := epBit w e = true ∧ ∀ e' < e, epBit w e' = false

theorem epBit_masked (w : Word) : epBit (w &&& epMask) = epBit w := funext fun e => epBit_and_epMask w e

theorem find_epBit_eq_some_iff (w : Word) (e : EpId) :
    (List.finRange 12).find? (epBit (w &&& epMask)) = some e ↔ LowestBit w e := by
  rw [epBit_masked, ← Fin.find?_eq_find?_finRange, Fin.find?_eq_some_iff]

theorem getLsbD_epMask (i : Nat) : epMask.getLsbD i = decide (i < 12) := by
  have hmask : epMask = (BitVec.allOnes 12).setWidth 32 := by decide
  rw [hmask, BitVec.getLsbD_setWidth, BitVec.getLsbD_allOnes, ← Bool.decide_and, decide_eq_decide]
  omega

/-- No endpoint's bit is set exactly if the implemented bits are 0. -/
theorem find_epBit_eq_none_iff (w : Word) :
    (List.finRange 12).find? (epBit (w &&& epMask)) = none ↔ w &&& epMask = 0#32 := by
  rw [← Fin.find?_eq_find?_finRange, Fin.find?_eq_none_iff]
  refine ⟨fun h => BitVec.eq_of_getLsbD_eq fun i _ => ?_, fun h e => by rw [h, epBit, BitVec.getLsbD_zero]⟩
  by_cases hi : i < 12
  · exact (h ⟨i, hi⟩).trans BitVec.getLsbD_zero.symm
  · simp [getLsbD_epMask, hi]

theorem bit_masked (e : EpId) : bit e.val &&& epMask = bit e.val := by
  revert e
  decide

/-! ### The buffer a record names (R40) -/

theorem held_bit {i : Nat} (h : i < 29) : (0x1FFFFFFF#32).getLsbD i = true := by
  interval_cases i <;> rfl

/-- Two records that agree below their flags name the same buffer. -/
theorem bufIdOf_of_held {c d : Word} (h : c &&& 0x1FFFFFFF#32 = d &&& 0x1FFFFFFF#32) : bufIdOf c = bufIdOf d := by
  refine bufIdOf_congr fun i hi => ?_
  have hbit := congrArg (·.getLsbD i) h
  simpa [held_bit hi] using hbit

theorem ofNat_bufIdOf (c : Word) : BitVec.ofNat 32 (bufIdOf c).val = c &&& 0x1F#32 := by
  apply BitVec.eq_of_toNat_eq
  rw [bufIdOf_val, BitVec.toNat_ofNat, BitVec.extractLsb'_toNat, Nat.shiftRight_zero, BitVec.toNat_and,
    show (0x1F#32).toNat = 2 ^ 5 - 1 by decide, Nat.and_two_pow_sub_one_eq_mod]
  omega

theorem bufIdOf_configInMask (c : Word) : bufIdOf (c &&& configInMask) = bufIdOf c := by
  have hmask : configInMask.extractLsb' 0 5 = BitVec.allOnes 5 := by decide
  exact Fin.ext (by rw [bufIdOf_val, bufIdOf_val, BitVec.extractLsb'_and, hmask, BitVec.and_allOnes])

/-! ### The transactions (R169, R170, R175) -/

section
variable {s : State} {e : EpId}

/-- The state after the read of IN_SENT, which gives back the buffers of the endpoints it sees (R169). -/
def afterSentRead (s : State) : State :=
  ((List.finRange 12).foldl (collect ((devPoint s).inSent &&& epMask)) (devPoint s)).tick

theorem devRead_inSent (s : State) : devRead .inSent s = .next ((devPoint s).inSent &&& epMask, afterSentRead s) := rfl

theorem afterSentRead_frame (s : State) : afterSentRead s =
    { (devPoint s).tick with owner := (afterSentRead s).owner, inOwn := (afterSentRead s).inOwn } :=
  congrArg State.tick (collects_frame _ _ _)

/-- The state after the clearing write and the read of the endpoint's record. -/
def reported (e : EpId) (s : State) : State :=
  (devPoint (State.tick { devPoint s with inSent := (devPoint s).inSent &&& ~~~(bit e.val) })).tick

theorem devWrite_inSent (e : EpId) (s : State) : devWrite .inSent (bit e.val) s =
    .next (State.tick { devPoint s with inSent := (devPoint s).inSent &&& ~~~(bit e.val) }) := by
  rw [devWrite, busWrite, regWrite, bit_masked, andThen_next]

theorem held_devPoint (s : State) (e : EpId) :
    (devPoint s).configOf e &&& 0x1FFFFFFF#32 = s.configOf e &&& 0x1FFFFFFF#32 := (devPoint_le s).held e

theorem configOf_afterSentRead (s : State) (e : EpId) : (afterSentRead s).configOf e = (devPoint s).configOf e := by
  rw [afterSentRead_frame]
  rfl

/-- The link engine leaves the buffer of a record as it is, so the record read names the buffer it named at first. -/
theorem bufIdOf_reported (e : EpId) (s : State) :
    bufIdOf ((reported e (afterSentRead s)).configOf e &&& configInMask) = bufIdOf (s.configOf e) := by
  rw [bufIdOf_configInMask]
  apply bufIdOf_of_held
  calc (reported e (afterSentRead s)).configOf e &&& 0x1FFFFFFF#32
      = (devPoint (afterSentRead s)).configOf e &&& 0x1FFFFFFF#32 := held_devPoint _ e
    _ = (afterSentRead s).configOf e &&& 0x1FFFFFFF#32 := held_devPoint _ e
    _ = (devPoint s).configOf e &&& 0x1FFFFFFF#32 := by rw [configOf_afterSentRead]
    _ = s.configOf e &&& 0x1FFFFFFF#32 := held_devPoint s e

/-! ### The operation (R262) -/

theorem exec_packetCollected_none (h : (devPoint s).inSent &&& epMask = 0#32) :
    exec .packetCollected s = .next ((afterSentRead s).give [s.params.statusFail]) := by
  have hfind := (find_epBit_eq_none_iff _).2 h
  have hparams : (afterSentRead s).params = s.params := by
    rw [afterSentRead_frame]
    exact devPoint_params s
  rw [exec, execPacketCollected, devRead_inSent, andThen_next, hfind, ← hparams]
  rfl

/-- The results of a completed call: OK, the endpoint and the buffer of its record. -/
abbrev collectedResults (e : EpId) (s : State) : List Word := [0#32, BitVec.ofNat 32 e.val, s.configOf e &&& 0x1F#32]

theorem exec_packetCollected_some (h : LowestBit (devPoint s).inSent e) :
    exec .packetCollected s = .next ((reported e (afterSentRead s)).give (collectedResults e s)) := by
  have hfind := (find_epBit_eq_some_iff _ e).2 h
  rw [exec, execPacketCollected, devRead_inSent, andThen_next, hfind]
  simp only [devWrite_inSent, andThen_next]
  have hread : devRead (.configIn e) (State.tick { devPoint (afterSentRead s) with
      inSent := (devPoint (afterSentRead s)).inSent &&& ~~~(bit e.val) }) =
      .next ((reported e (afterSentRead s)).configOf e &&& configInMask, reported e (afterSentRead s)) := rfl
  rw [hread, andThen_next, bufIdOf_reported, ofNat_bufIdOf, statusOk]

/-- The call sees no completion, or there is a lowest one. -/
theorem inSent_none_or_lowest (w : Word) : w &&& epMask = 0#32 ∨ ∃ e, LowestBit w e := by
  cases h : (List.finRange 12).find? (epBit (w &&& epMask)) with
  | none => exact .inl ((find_epBit_eq_none_iff w).1 h)
  | some e => exact .inr ⟨e, (find_epBit_eq_some_iff w e).1 h⟩

theorem LowestBit.masked_ne_zero {w : Word} (h : LowestBit w e) : w &&& epMask ≠ 0#32 := by
  intro hzero
  have hnone := (find_epBit_eq_none_iff w).2 hzero
  rw [(find_epBit_eq_some_iff w e).2 h] at hnone
  cases hnone

theorem LowestBit.unique {w : Word} {e' : EpId} (h : LowestBit w e) (h' : LowestBit w e') : e = e' :=
  Option.some.inj (((find_epBit_eq_some_iff w e).2 h).symm.trans ((find_epBit_eq_some_iff w e').2 h'))

/-- Of the fields the link engine never writes the read of IN_SENT changes the owners, INOWN and the count. -/
theorem swPart_afterSentRead (s : State) : (afterSentRead s).swPart =
    ({ s.tick with owner := (afterSentRead s).owner, inOwn := (afterSentRead s).inOwn } : State).swPart := by
  conv_lhs => rw [afterSentRead_frame]
  exact congrArg (fun p : SwPart => { p with owner := (afterSentRead s).owner, inOwn := (afterSentRead s).inOwn })
    (swPart_tick_congr (devPoint_frame s).1)

theorem swPart_reported (e : EpId) (s : State) : (reported e s).swPart = s.tick.tick.swPart :=
  swPart_tick_congr ((devPoint_frame _).1.trans (swPart_tick_congr (devPoint_frame s).1))

theorem reported_owner (e : EpId) (s : State) : (reported e s).owner = s.owner :=
  congrArg SwPart.owner (swPart_reported e s)

theorem reported_inOwn (e : EpId) (s : State) : (reported e s).inOwn = s.inOwn :=
  congrArg SwPart.inOwn (swPart_reported e s)

/-- The three transactions of a call that reports an endpoint, in the fields the link engine never writes. -/
theorem swPart_reported_afterSentRead (e : EpId) (s : State) : (reported e (afterSentRead s)).swPart =
    ({ s.tick.tick.tick with owner := (reported e (afterSentRead s)).owner,
                             inOwn := (reported e (afterSentRead s)).inOwn } : State).swPart := by
  rw [reported_owner, reported_inOwn]
  exact (swPart_reported e _).trans (swPart_tick_congr (swPart_tick_congr (swPart_afterSentRead s)))

theorem afterSentRead_quiet (h : s.Quiet) : afterSentRead s =
    { s.tick with owner := (afterSentRead s).owner, inOwn := (afterSentRead s).inOwn } := by
  conv_lhs => rw [afterSentRead_frame, devPoint_quiet h]

/-- A read that sees no completion changes nothing. -/
theorem afterSentRead_of_none (h : s.Quiet) (hnone : s.inSent &&& epMask = 0#32) : afterSentRead s = s.tick := by
  have hkeep : ∀ e, collect 0#32 s e = s := fun e => if_neg (by simp [epBit])
  rw [afterSentRead, devPoint_quiet h, hnone, List.foldl_fixed' hkeep]

theorem reported_quiet (h : s.Quiet) (e : EpId) :
    reported e s = (State.tick { s with inSent := s.inSent &&& ~~~(bit e.val) }).tick := by
  have hwritten : State.Quiet (State.tick { s with inSent := s.inSent &&& ~~~(bit e.val) }) := h
  rw [reported, devPoint_quiet h, devPoint_quiet hwritten]

theorem reported_afterSentRead_quiet (h : s.Quiet) (e : EpId) : reported e (afterSentRead s) =
    { s.tick.tick.tick with inSent := s.inSent &&& ~~~(bit e.val)
                            owner := (reported e (afterSentRead s)).owner
                            inOwn := (reported e (afterSentRead s)).inOwn } := by
  have hread := afterSentRead_quiet h
  have hquiet : (afterSentRead s).Quiet := by rw [hread]; exact h
  rw [reported_owner, reported_inOwn, reported_quiet hquiet]
  conv_lhs => rw [hread]
  rfl

theorem inOwnOf_afterSentRead (h : s.Quiet) (e : EpId) :
    (afterSentRead s).inOwnOf e = if epBit s.inSent e then none else s.inOwnOf e := by
  rw [afterSentRead, inOwnOf_tick, inOwnOf_collects, devPoint_quiet h, epBit_masked]
  simp

theorem ownerOf_afterSentRead (h : s.Quiet) (b : BufId) : (afterSentRead s).ownerOf b =
    if ∃ e : EpId, epBit s.inSent e = true ∧ s.inOwnOf e = some b then .sw else s.ownerOf b := by
  rw [afterSentRead, ownerOf_tick, ownerOf_collects, devPoint_quiet h, epBit_masked]
  simp

end

/-- Settles O42: by whether the one read of IN_SENT shows a completion. -/
theorem packetCollected : Obligations.PacketCollected := by
  refine ⟨fun p v x => decode_operation p 10 (by decide) v x, fun s => ?_, fun s hquiet hnone => ?_,
    fun s e hquiet hset hlow => ?_⟩
  · rcases inSent_none_or_lowest (devPoint s).inSent with hnone | ⟨e, hlow⟩
    · have hsw := swPart_afterSentRead s
      have hcount : (afterSentRead s).pc.t = s.pc.t + 1 := congrArg (fun p : SwPart => p.pc.t) hsw
      refine ⟨_, exec_packetCollected_none hnone, ?_, fun _ => ⟨rfl, hcount⟩,
        fun e hset hlow => absurd hnone (LowestBit.masked_ne_zero ⟨hset, hlow⟩)⟩
      rw [give_pc, hcount, Nat.add_sub_cancel_left]
      exact congrArg (fun p : SwPart => { p with results := [s.params.statusFail] }) hsw
    · have hsw := swPart_reported_afterSentRead e s
      have hcount : (reported e (afterSentRead s)).pc.t = s.pc.t + 3 := congrArg (fun p : SwPart => p.pc.t) hsw
      refine ⟨_, exec_packetCollected_some hlow, ?_, fun hnone => absurd hnone hlow.masked_ne_zero,
        fun e' hset hlow' => ?_⟩
      · rw [give_pc, hcount, Nat.add_sub_cancel_left]
        exact congrArg (fun p : SwPart => { p with results := collectedResults e s }) hsw
      · obtain rfl := hlow.unique ⟨hset, hlow'⟩
        exact ⟨rfl, hcount⟩
  · have hexec := exec_packetCollected_none (s := s) (by rwa [devPoint_quiet hquiet])
    rw [hexec, afterSentRead_of_none hquiet hnone]
    rfl
  · have hexec := exec_packetCollected_some (s := s) (e := e) (by rw [devPoint_quiet hquiet]; exact ⟨hset, hlow⟩)
    refine ⟨_, hexec, congrArg (State.give · (collectedResults e s)) (reported_afterSentRead_quiet hquiet e),
      fun e' => ?_, fun b => ?_⟩
    · rw [inOwnOf_give, State.inOwnOf, reported_inOwn]
      exact inOwnOf_afterSentRead hquiet e'
    · rw [ownerOf_give, State.ownerOf, reported_owner]
      exact ownerOf_afterSentRead hquiet b

end Sys2Proof.Machine

/-! SUPPORT. Packet receive (R264, R265): the depth that the read of USBSTAT shows, the entry that the read of RXFIFO
pops, and the copy out of its buffer. -/

namespace Sys2Proof.Machine

section
variable {s : State} {data : Nat} {e : RxEntry} {rest : List RxEntry}

/-! ### The depth of RX (R30, R155) -/

/-- The depths of the queues fit their fields of USBSTAT. -/
abbrev State.DepthsFit (s : State) : Prop := s.avOut.length < 16 ∧ s.avSetup.length < 8 ∧ s.rx.length < 16

theorem receiveDepth_eq_zero_iff (h : s.DepthsFit) : s.usbstat.extractLsb' 24 4 = 0#4 ↔ s.rx = [] := by
  have hsum := usbstat_toNat h
  have hflags := usbstat_flags_lt s
  rw [← bitField_eq_zero_iff, ← List.length_eq_zero_iff]
  have hfield : bitField s.usbstat.toNat 24 4 = s.rx.length := by
    simp only [bitField]
    omega
  rw [hfield]

/-! ### The transactions before the copy (R155, R161) -/

/-- The state after both reads of a call whose second read meets `e` at the head of RX. -/
def popped (e : RxEntry) (rest : List RxEntry) (s : State) : State :=
  ({ modifyPoint s with rx := rest }.takeBack e.buf).tick

theorem devRead_rxFifo (h : (modifyPoint s).rx = e :: rest) :
    devRead .rxFifo (afterStatus s) = .next (rxWord e, popped e rest s) := by
  have hpop : regRead .rxFifo (devPoint (afterStatus s)) = _ := readRxFifo_cons h
  rw [devRead, busRead, hpop, andThen_next]
  rfl

/-- An entry that some reception makes (R310, R311). -/
abbrev Receivable (e : RxEntry) : Prop := e.size.toNat ≤ 64 ∧ e.ep.toNat < 12

/-- The results of a call that delivers `e`. -/
abbrev receiveResults (e : RxEntry) : List Word :=
  [0#32, e.ep.setWidth 32, BitVec.ofNat 32 e.buf.val, e.size.setWidth 32, flag e.setup]

/-! ### The operation (R264) -/

theorem exec_recvPacket_nil (hdata : data < 4294967296) (hfit : (devPoint s).DepthsFit) (hrx : (devPoint s).rx = []) :
    exec (.recvPacket data) s = .next ((afterStatus s).give [s.params.statusFail]) := by
  rw [exec, execRecvPacket, if_pos ((fitsU32_iff data).2 hdata), devRead_usbstat, andThen_next,
    if_pos ((receiveDepth_eq_zero_iff hfit).2 hrx), returnFail, params_afterStatus]

/-- What a call does past its two reads: it checks the entry, copies its bytes and answers its fields. -/
def deliver (data : Nat) (e : RxEntry) (s : State) : Host.Outcome State Fault Refusal :=
  if Config.maxPkt < e.size.toNat ∨ 12 ≤ e.ep.toNat then raise .hardwareInvariant s
  else andThen (fromDevice e.buf.val data e.size.toNat s) fun t => .next (t.give (receiveResults e))

theorem deliver_impossible (h : 64 < e.size.toNat ∨ 12 ≤ e.ep.toNat) : deliver data e s = raise .hardwareInvariant s :=
  if_pos h

theorem deliver_received (h : Receivable e) : deliver data e s =
    andThen (fromDevice e.buf.val data e.size.toNat s) fun t => .next (t.give (receiveResults e)) :=
  if_neg (by simp only [Config.maxPkt]; omega)

theorem exec_recvPacket_cons (hdata : data < 4294967296) (hfit : (devPoint s).DepthsFit) (hrx : (devPoint s).rx ≠ [])
    (hpop : (modifyPoint s).rx = e :: rest) : exec (.recvPacket data) s = deliver data e (popped e rest s) := by
  rw [exec, execRecvPacket, if_pos ((fitsU32_iff data).2 hdata), devRead_usbstat, andThen_next,
    if_neg (mt (receiveDepth_eq_zero_iff hfit).1 hrx), devRead_rxFifo hpop, andThen_next]
  simp only [rxDecode_rxWord, ite_fromDevice]
  rfl

/-! ### With no link step (R264) -/

/-- The state after both reads with no link step before them. -/
abbrev poppedQuiet (e : RxEntry) (rest : List RxEntry) (s : State) : State :=
  ({ s with rx := rest, owner := s.owner.set e.buf.val .sw } : State).done 2 s.results

theorem popped_quiet (hquiet : s.Quiet) (e : RxEntry) (rest : List RxEntry) :
    popped e rest s = poppedQuiet e rest s := by
  rw [popped, modifyPoint_quiet hquiet]
  rfl

theorem exec_recvPacket_quiet (hdata : data < 4294967296) (hquiet : s.Quiet) (hfit : s.DepthsFit)
    (hrx : s.rx = e :: rest) : exec (.recvPacket data) s = deliver data e (poppedQuiet e rest s) := by
  have hpoint := devPoint_quiet hquiet
  rw [exec_recvPacket_cons hdata (by rwa [hpoint]) (by simp [hpoint, hrx])
    (by rw [modifyPoint_quiet hquiet, tick_rx, hrx]), popped_quiet hquiet]

theorem exec_recvPacket_empty (hdata : data < 4294967296) (hquiet : s.Quiet) (hfit : s.DepthsFit) (hrx : s.rx = []) :
    exec (.recvPacket data) s = .next (s.done 1 [s.params.statusFail]) := by
  have hpoint := devPoint_quiet hquiet
  rw [exec_recvPacket_nil hdata (by rwa [hpoint]) (by rwa [hpoint]), afterStatus_quiet hquiet]
  rfl

/-! ### Between the two reads (R61, R326) -/

theorem ownerOf_popped (e : RxEntry) (rest : List RxEntry) (s : State) : (popped e rest s).ownerOf e.buf = .sw := by
  rw [popped, ownerOf_tick, ownerOf_takeBack, if_pos rfl]

@[simp] theorem params_popped (e : RxEntry) (rest : List RxEntry) (s : State) : (popped e rest s).params = s.params :=
  congrArg SwPart.params (swPart_modifyPoint s)

@[simp] theorem memByte_popped (e : RxEntry) (rest : List RxEntry) (s : State) (a : Nat) :
    (popped e rest s).memByte a = s.memByte a :=
  congrArg (fun p : SwPart => Memory.get p.mem a) (swPart_modifyPoint s)

/-- The buffer of an entry in RX is in no availability queue (R61). -/
theorem State.Owned.received_not_available (h : s.Owned) (he : e ∈ s.rx) : e.buf ∉ s.avOut ∧ e.buf ∉ s.avSetup := by
  have hle := (h e.buf).1
  have hpos : 0 < (s.rx.map RxEntry.buf).count e.buf := List.count_pos_iff.2 (List.mem_map_of_mem he)
  rw [State.hwRef] at hle
  exact ⟨List.count_eq_zero.1 (by omega), List.count_eq_zero.1 (by omega)⟩

/-- The link engine writes no buffer whose entry waits in RX. -/
theorem bufByte_popped (h : (devPoint s).Owned) (he : e ∈ (devPoint s).rx) (rest : List RxEntry) (j : ByteIx) :
    (popped e rest s).bufByte e.buf j = (devPoint s).bufByte e.buf j := by
  obtain ⟨hout, hsetup⟩ := h.received_not_available he
  exact bufByte_congr ((devPoint_le (afterStatus s)).buf e.buf hout hsetup) j

end

/-- Settles O45: with no link step both reads meet the same head, and past the pop the first failing check stops. -/
theorem recvPacketStops : Obligations.RecvPacketStops := by
  intro s data e rest hdata hquiet hout hsetup hrxlen hrx after
  have hexec : exec (.recvPacket data) s = deliver data e after :=
    exec_recvPacket_quiet hdata hquiet ⟨hout, hsetup, hrxlen⟩ hrx
  refine ⟨fun himpossible => ?_, fun hpos hsize hep halign => ?_, fun hpos hsize hep f hf => ?_⟩
  · rw [hexec, deliver_impossible himpossible]
    rfl
  · rw [hexec, deliver_received ⟨hsize, hep⟩, fromDevice_misaligned hpos hsize halign]
    rfl
  · rw [hexec, deliver_received ⟨hsize, hep⟩, fault_transferFromDevice hdata hsize hf, andThen_fault]

/-- Settles O43: with no link step both reads meet the same head, and its buffer is software's for the copy. -/
theorem recvPacketQuiet : Obligations.RecvPacketQuiet := by
  refine ⟨fun p v x => decode_operation p 11 (by decide) v x, fun s data hdata hquiet hp hq hw => ?_⟩
  have hfit := queue_lengths_lt hp hq
  refine ⟨exec_recvPacket_empty hdata hquiet hfit, fun e rest hrx halign hmem => ?_⟩
  obtain ⟨-, -, -, hentries⟩ := hq
  have hmade : Receivable e := hentries e (by rw [hrx]; exact List.mem_cons_self)
  have howner := ownerOf_popped e rest s
  rw [popped_quiet hquiet] at howner
  obtain ⟨t, ht, hstate, hbytes, hother⟩ := fromDevice_quiet (s := poppedQuiet e rest s) hquiet hmade.1 halign hmem
    howner hw
  refine ⟨t.give (receiveResults e), ?_, ?_, hbytes, hother⟩
  · rw [exec_recvPacket_quiet hdata hquiet hfit hrx, deliver_received hmade, ht, andThen_next]
  · conv_lhs => rw [hstate]
    simp [State.done, State.give, Nat.add_assoc]

/-- Settles O44: the link engine only appends to RX between the two reads, so the second pops the head that the first
saw; the invariant keeps that entry's buffer out of the queues the link engine receives into. -/
theorem recvPacketCompletes : Obligations.RecvPacketCompletes := by
  intro s data hinv hdata halign hmem
  have hinv' : (devPoint s).Inv := closed_inv.point hinv
  have hfit := queue_lengths_lt hinv'.params hinv'.queues
  cases hrx : (devPoint s).rx with
  | nil => exact ⟨_, exec_recvPacket_nil hdata hfit hrx, fun _ => ⟨rfl, devPoint_mem s⟩, nofun⟩
  | cons e rest =>
    obtain ⟨later, hlater⟩ := (devPoint_le (afterStatus s)).rx
    have hpop : (modifyPoint s).rx = e :: (rest ++ later) := hlater.symm.trans (congrArg (· ++ later) hrx)
    have hhead : e ∈ (devPoint s).rx := by rw [hrx]; exact List.mem_cons_self
    obtain ⟨-, -, -, hentries⟩ := hinv'.queues
    have hmade : Receivable e := hentries e hhead
    have hinv'' := closed_inv.devRead (closed_inv.devRead hinv (devRead_usbstat s)) (devRead_rxFifo hpop)
    have howner := ownerOf_popped e (rest ++ later) s
    obtain ⟨hout, hsetup, -, -⟩ := hinv''.owned.free howner
    obtain ⟨t, ht, -, -, -, hframe, -, hcopied⟩ := fromDevice_next (data := data) hmade.1 (fun _ => halign)
      (fun j hj => by rw [params_popped]; exact hmem j (by omega)) howner hout hsetup hinv''.memory
    obtain ⟨hbytes, hother⟩ := memByte_delivered hmade.1 hcopied
    refine ⟨t.give (receiveResults e), ?_, nofun, fun e' rest' heq => ?_⟩
    · rw [exec_recvPacket_cons hdata hfit (List.ne_nil_of_mem hhead) hpop, deliver_received hmade, ht, andThen_next]
    · obtain ⟨rfl, rfl⟩ := List.cons.inj heq
      refine ⟨rfl, ?_, fun j hj => ?_, fun a ha => ?_⟩
      · have hkept : t.owner = (popped e (rest ++ later) s).owner := congrArg SwPart.owner hframe
        rw [ownerOf_give, State.ownerOf, hkept]
        exact howner
      · rw [memByte_give, hbytes j hj, bufByte_popped hinv'.owned hhead]
      · rw [memByte_give, hother a ha, memByte_popped]

end Sys2Proof.Machine

/-! SUPPORT. The word-transfer engine (R290 to R294): the two copies as operations and their round trip. -/

namespace Sys2Proof.Machine

section
variable {s t : State} {buf data n : Nat} {b : BufId}

/-! ### The operations are their copies (R116, R290, R291) -/

theorem fits_transfer (hbuf : buf < 256) (hdata : data < 4294967296) (hn : n < 256) :
    (fitsU8 buf && fitsU32 data && fitsU8 n) = true := by
  simp only [Bool.and_eq_true, fitsU8_iff, fitsU32_iff]
  exact ⟨⟨hbuf, hdata⟩, hn⟩

theorem exec_transferToDevice (hbuf : buf < 256) (hdata : data < 4294967296) (hn : n < 256) (s : State) :
    exec (.transferToDevice buf data n) s = andThen (toDevice buf data n s) fun t => .next (t.give []) :=
  if_pos (fits_transfer hbuf hdata hn)

theorem exec_transferFromDevice (hbuf : buf < 256) (hdata : data < 4294967296) (hn : n < 256) (s : State) :
    exec (.transferFromDevice buf data n) s = andThen (fromDevice buf data n s) fun t => .next (t.give []) :=
  if_pos (fits_transfer hbuf hdata hn)

/-- A completed copy answers its state without results. -/
theorem exec_transferToDevice_next (hdata : data < 4294967296) (hn : n ≤ 64) (h : toDevice b.val data n s = .next t) :
    exec (.transferToDevice b.val data n) s = .next (t.give []) := by
  rw [exec_transferToDevice (by omega) hdata (by omega), h, andThen_next]

theorem exec_transferFromDevice_next (hdata : data < 4294967296) (hn : n ≤ 64)
    (h : fromDevice b.val data n s = .next t) :
    exec (.transferFromDevice b.val data n) s = .next (t.give []) := by
  rw [exec_transferFromDevice (by omega) hdata (by omega), h, andThen_next]

end

/-- Settles O36: a software-owned buffer is in no availability queue (R61), so its copy completes for every schedule. -/
theorem transferToDevice : Obligations.TransferToDevice := by
  refine ⟨fun p v x => decode_operation p 12 (by decide) v x,
    fun s buf data hdata => exec_transferToDevice_next hdata (by decide) (toDevice_zero buf data s),
    fun s buf data n hn hdata halign hmem howned howner => ?_⟩
  obtain ⟨hout, hsetup, -, -⟩ := howned.free howner
  obtain ⟨t, ht, hmoved, hframe, hbytes⟩ := toDevice_next hn (fun _ => halign) hmem howner hout hsetup
  exact ⟨t.give [], exec_transferToDevice_next hdata hn ht,
    congrArg (fun p : SwPart => { p with results := [] }) hframe, hbytes,
    fun hquiet => ⟨congrArg (State.give · []) (hmoved.copied hframe hquiet),
      fun b j hb => bufByte_congr ((hmoved.quiet hquiet).2 b hb) j⟩⟩

/-- Settles O37: as O36; the bytes that land are those that stood in the buffer before any link step. -/
theorem transferFromDevice : Obligations.TransferFromDevice := by
  refine ⟨fun p v x => decode_operation p 13 (by decide) v x,
    fun s buf data hdata => exec_transferFromDevice_next hdata (by decide) (fromDevice_zero buf data s),
    fun s buf data n hn hdata halign hmem howned howner hwf => ?_⟩
  obtain ⟨hout, hsetup, -, -⟩ := howned.free howner
  obtain ⟨t, ht, hmoved, -, -, hframe, hbuf, hdelivered⟩ :=
    fromDevice_next hn (fun _ => halign) hmem howner hout hsetup hwf
  obtain ⟨hbytes, hother⟩ := memByte_delivered hn hdelivered
  exact ⟨t.give [], exec_transferFromDevice_next hdata hn ht,
    congrArg (fun p : SwPart => { p with results := [] }) hframe, hbytes, hother,
    fun hquiet => congrArg (State.give · []) (hmoved.delivered hframe (hbuf hquiet) hquiet)⟩

/-! ### The round trip (R292) -/

/-- The link engine writes no buffer that software owns (R61, R310, R311). -/
theorem bufByte_devTakes {s : State} {b : BufId} (howned : s.Owned) (howner : s.ownerOf b = .sw) (ds : List DevStep)
    (j : ByteIx) : (ds.foldl devTake s).bufByte b j = s.bufByte b j := by
  obtain ⟨hout, hsetup, -, -⟩ := howned.free howner
  exact bufByte_congr ((devTakes_le ds s).buf b hout hsetup) j

theorem Closed.devTakes {P : State → Prop} (c : Closed P) (ds : List DevStep) {s : State} (h : P s) :
    P (ds.foldl devTake s) := by
  induction ds generalizing s with
  | nil => exact h
  | cons d ds ih =>
    refine ih ?_
    rcases devTake_cases s d with hd | hd
    · exact c.dev d s _ h hd
    · rwa [hd]

/-- Settles O39: what the first copy leaves meets the premises of the second after any link steps, which keep R61 and
the bytes of the buffer. -/
theorem copyRoundTrip : Obligations.CopyRoundTrip := by
  intro s buf d1 d2 n between hn hd1 halign1 hmem1 hd2 halign2 hmem2 howned howner hwf
  obtain ⟨-, -, hto⟩ := transferToDevice
  obtain ⟨-, -, hfrom⟩ := transferFromDevice
  obtain ⟨t, ht, hframe, hbytes, -⟩ := hto s buf d1 n hn hd1 halign1 hmem1 howned howner
  have howned' : t.Owned := closed_owned.exec howned ht
  have howner' : t.ownerOf buf = .sw := (congrArg (fun p : SwPart => p.owner[buf]) hframe).trans howner
  have hframe' : (between.foldl devTake t).swPart = (s.done (copyCount n) []).swPart :=
    (devTakes_frame between t).1.trans hframe
  have hparams : (between.foldl devTake t).params = s.params := congrArg SwPart.params hframe'
  have hmem : (between.foldl devTake t).mem = s.mem := congrArg SwPart.mem hframe'
  obtain ⟨u, hu, -, hback, -, -⟩ := hfrom (between.foldl devTake t) buf d2 n hn hd2 halign2
    (fun j hj => by rw [hparams]; exact hmem2 j hj) (closed_owned.devTakes between howned')
    ((congrArg (fun p : SwPart => p.owner[buf]) hframe').trans howner) (by rwa [hmem])
  refine ⟨t, u, ht, hu, fun j hj => ?_⟩
  obtain ⟨ix, rfl⟩ : ∃ ix : ByteIx, ix.val = j := ⟨⟨j, by omega⟩, rfl⟩
  calc u.memByte (d2 + ix.val) = (between.foldl devTake t).bufByte buf ix := hback ix hj
    _ = t.bufByte buf ix := bufByte_devTakes howned' howner' between ix
    _ = s.memByte (d1 + ix.val) := (hbytes ix).trans (if_pos hj)

end Sys2Proof.Machine

/-! SUPPORT. Where the copies stop (R290, R291, R81, R343): a copy is its first words and the rest, and with no link
step the rest stops at its first access, or with what has landed of the word that holds the first byte outside
memory. -/

namespace Sys2Proof.Machine

section
variable {s t : State} {b : BufId} {buf data n m q : Nat}

/-! ### The checks before any transaction (R343) -/

theorem toDevice_range (h : 32 ≤ buf ∨ 64 < n) (data : Nat) (s : State) :
    toDevice buf data n s = raise .argumentRange s := if_pos h

theorem fromDevice_range (h : 32 ≤ buf ∨ 64 < n) (data : Nat) (s : State) :
    fromDevice buf data n s = raise .argumentRange s := if_pos h

/-! ### A copy is its first words and the rest -/

theorem ofNat_buf (b : BufId) : Fin.ofNat 32 b.val = b := Fin.ext (Nat.mod_eq_of_lt b.isLt)

/-- What a copy to a buffer does from its word q on. -/
def putRest (b : BufId) (data n q : Nat) (s : State) : Host.Outcome State Fault Refusal :=
  andThen (putWords b data ((wholeWords n).drop q) s) (putTail b data n)

/-- What a copy from a buffer does from its word q on. -/
def getRest (b : BufId) (data n q : Nat) (s : State) : Host.Outcome State Fault Refusal :=
  andThen (getWords b data ((wholeWords n).drop q) s) (getTail b data n)

theorem toDevice_eq_putRest (hn : n ≤ 64) (halign : data % 4 = 0) (b : BufId) (s : State) :
    toDevice b.val data n s = putRest b data n 0 s := by
  rw [toDevice, if_neg (by simp only [Config.maxPkt]; omega), if_neg (by omega), ofNat_buf]
  rfl

theorem fromDevice_eq_getRest (hn : n ≤ 64) (halign : data % 4 = 0) (b : BufId) (s : State) :
    fromDevice b.val data n s = getRest b data n 0 s := by
  rw [fromDevice, if_neg (by simp only [Config.maxPkt]; omega), if_neg (by omega), ofNat_buf]
  rfl

theorem wholeWords_split (hq : q ≤ n / 4) : wholeWords n = wholeWords (4 * q) ++ (wholeWords n).drop q := by
  have hfirst : wholeWords (4 * q) = (wholeWords n).take q := by
    rw [wholeWords, wholeWords, List.take_take, Nat.min_eq_left hq, Nat.mul_div_cancel_left q (by decide)]
  rw [hfirst, List.take_append_drop]

theorem drop_wholeWords_cons (hn : n ≤ 64) (hq : q < n / 4) :
    ∃ (k : WordIx) (ks : List WordIx), (wholeWords n).drop q = k :: ks ∧ k.val = q := by
  have hlen : q < (wholeWords n).length := by rwa [length_wholeWords hn]
  exact ⟨_, _, List.drop_eq_getElem_cons hlen, by simp [wholeWords]⟩

theorem drop_wholeWords_nil (hn : n ≤ 64) (hq : n / 4 ≤ q) : (wholeWords n).drop q = [] :=
  List.drop_eq_nil_of_le (by rwa [length_wholeWords hn])

theorem putWords_append (b : BufId) (data : Nat) (ks ls : List WordIx) :
    putWords b data (ks ++ ls) = fun s => andThen (putWords b data ks s) (putWords b data ls) := by
  induction ks with
  | nil => rfl
  | cons k ks ih => simp only [List.cons_append, putWords, ih, andThen_assoc]

theorem getWords_append (b : BufId) (data : Nat) (ks ls : List WordIx) :
    getWords b data (ks ++ ls) = fun s => andThen (getWords b data ks s) (getWords b data ls) := by
  induction ks with
  | nil => rfl
  | cons k ks ih => simp only [List.cons_append, getWords, ih, andThen_assoc]

/-- A copy of whole words has no tail. -/
theorem putTail_whole (b : BufId) (data q : Nat) : putTail b data (4 * q) = .next :=
  funext fun _ => if_pos (Nat.mul_mod_right 4 q)

theorem getTail_whole (b : BufId) (data q : Nat) : getTail b data (4 * q) = .next :=
  funext fun _ => if_pos (Nat.mul_mod_right 4 q)

theorem andThen_next_right {α : Type} (o : Host.Outcome α Fault Refusal) : andThen o .next = o := by cases o <;> rfl

theorem toDevice_split (hn : n ≤ 64) (halign : data % 4 = 0) (hq : q ≤ n / 4) (b : BufId) (s : State) :
    toDevice b.val data n s = andThen (toDevice b.val data (4 * q) s) (putRest b data n q) := by
  rw [toDevice_eq_putRest hn halign, toDevice_eq_putRest (by omega) halign, putRest, putRest, List.drop_zero,
    List.drop_zero, putTail_whole, andThen_next_right, wholeWords_split hq, putWords_append, andThen_assoc]
  rfl

theorem fromDevice_split (hn : n ≤ 64) (halign : data % 4 = 0) (hq : q ≤ n / 4) (b : BufId) (s : State) :
    fromDevice b.val data n s = andThen (fromDevice b.val data (4 * q) s) (getRest b data n q) := by
  rw [fromDevice_eq_getRest hn halign, fromDevice_eq_getRest (by omega) halign, getRest, getRest, List.drop_zero,
    List.drop_zero, getTail_whole, andThen_next_right, wholeWords_split hq, getWords_append, andThen_assoc]
  rfl

/-! ### The first access of the rest -/

theorem busRead_owned (hquiet : s.Quiet) (ho : s.ownerOf b = .hw) (k : WordIx) :
    busRead (bufRead b k) s = raise .ownershipViolation s := by
  rw [busRead, devPoint_quiet hquiet, bufRead, if_pos ho]
  rfl

theorem busRead_quiet (hquiet : s.Quiet) (ho : s.ownerOf b = .sw) (k : WordIx) :
    busRead (bufRead b k) s = .next (s.bufWord b k, s.tick) := by
  rw [busRead, devPoint_quiet hquiet, bufRead, if_neg (by rw [ho]; decide)]
  rfl

/-- With no link step a copy from a hardware-owned buffer faults at its first word, whole or trailing. -/
theorem fromDevice_owned (hquiet : s.Quiet) (ho : s.ownerOf b = .hw) (hpos : 0 < n) (hn : n ≤ 64)
    (halign : data % 4 = 0) : fromDevice b.val data n s = raise .ownershipViolation s := by
  rw [fromDevice_eq_getRest hn halign, getRest]
  rcases Nat.eq_zero_or_pos (n / 4) with htail | hwhole
  · rw [drop_wholeWords_nil hn htail.le, getWords, andThen_next, getTail, if_neg (by omega), busRead_owned hquiet ho]
    rfl
  · obtain ⟨k, ks, hdrop, -⟩ := drop_wholeWords_cons hn hwhole
    rw [hdrop, getWords, busRead_owned hquiet ho]
    rfl

/-! ### The first byte outside the caller's memory (R81, R86) -/

theorem span_outside {p : Params} {addr len a : Nat} (hout : inMemory p a = false) (hle : addr ≤ a)
    (hlt : a < addr + len) : ¬ spanInMemory p addr len = true := by
  intro hspan
  have hin := spanInMemory_iff.1 hspan (a - addr) (by omega)
  rw [Nat.add_sub_cancel' hle, hout] at hin
  cases hin

section
variable {addr a : Nat} (hout : inMemory s.params a = false) (hle : addr ≤ a)
include hout hle

theorem memRead4_stuck (hlt : a < addr + 4) : memRead4 addr s = stuck s := if_neg (span_outside hout hle hlt)

theorem memReadBytes_stuck {len : Nat} (hlt : a < addr + len) : memReadBytes addr len s = stuck s :=
  if_neg (span_outside hout hle hlt)

theorem memWrite4_stuck (hlt : a < addr + 4) (w : Word) : memWrite4 addr w s = stuck s :=
  if_neg (span_outside hout hle hlt)

end

/-- A copy to a buffer is stuck at the word that holds byte m, before that word's transaction. -/
theorem putRest_stuck (hn : n ≤ 64) (hm : m < n) (hout : inMemory s.params (data + m) = false) (b : BufId) :
    putRest b data n (m / 4) s = stuck s := by
  rw [putRest]
  rcases Nat.lt_or_ge (m / 4) (n / 4) with hword | htail
  · obtain ⟨k, ks, hdrop, hk⟩ := drop_wholeWords_cons hn hword
    rw [hdrop, putWords, memRead4_stuck hout (by omega) (by omega)]
    rfl
  · rw [drop_wholeWords_nil hn htail, putWords, andThen_next, putTail, if_neg (by omega),
      memReadBytes_stuck hout (by omega) (by omega)]
    rfl

/-- The copy to a buffer whose words before byte m have been copied is stuck there. -/
theorem toDevice_stuck (hn : n ≤ 64) (halign : data % 4 = 0) (hm : m < n)
    (ht : toDevice b.val data (4 * (m / 4)) s = .next t) (hout : inMemory t.params (data + m) = false) :
    toDevice b.val data n s = stuck t := by
  rw [toDevice_split hn halign (Nat.div_le_div_right hm.le), ht, andThen_next, putRest_stuck hn hm hout]

/-- A copy to a buffer reads its first word, whole or trailing, from memory before any transaction. -/
theorem toDevice_stuck_first (hn : n ≤ 64) (halign : data % 4 = 0) (hout : ¬ s.HasBytes data (min n 4)) (b : BufId) :
    toDevice b.val data n s = stuck s := by
  obtain ⟨m, hm, hout⟩ : ∃ m < min n 4, inMemory s.params (data + m) = false := by
    simpa [and_assoc] using hout
  have hfirst : 4 * (m / 4) = 0 := by omega
  exact toDevice_stuck hn halign (by omega) (by rw [hfirst]; exact toDevice_zero b data s) hout

/-- The number of bytes that a copy of n bytes from a buffer delivers where byte m is the first outside the caller's
memory: a whole word is stored whole, the trailing bytes one by one (log 27). -/
def landed (n m : Nat) : Nat := if m < 4 * (n / 4) then 4 * (m / 4) else m

theorem landed_of_word (h : m / 4 < n / 4) : landed n m = 4 * (m / 4) := if_pos (by omega)

theorem landed_of_tail (h : n / 4 ≤ m / 4) : landed n m = m := if_neg (by omega)

theorem landed_bounds (n m : Nat) : 4 * (m / 4) ≤ landed n m ∧ landed n m ≤ m := by
  unfold landed
  split <;> omega

/-- The state in which the rest of a copy from a buffer is stuck at byte m: the word that holds it is read, and of its
bytes those that land are stored. -/
def lastRead (b : BufId) (data n m : Nat) (s : State) : State :=
  { s.tick with
    mem := storeBytes s.mem (data + 4 * (m / 4)) (wordBytes (s.bufWord b (tailWord m)) (landed n m - 4 * (m / 4))) }

theorem wordBytes_append (w : Word) (i j : Nat) :
    wordBytes w (i + j) = wordBytes w i ++ (List.range j).map fun k => byteOfWord w (i + k) := by
  simp [wordBytes, List.range_add]

theorem memWriteBytes_append {addr : Nat} (vs ws : List Byte) (s : State) :
    memWriteBytes addr (vs ++ ws) s =
      andThen (memWriteBytes addr vs s) (memWriteBytes (addr + vs.length) ws) := by
  induction vs generalizing addr s with
  | nil => rfl
  | cons v vs ih =>
    simp only [List.cons_append, memWriteBytes, List.length_cons]
    split
    · rw [ih, Nat.add_assoc, Nat.add_comm 1]
    · rfl

/-- The bytes of a word before the first address outside the caller's memory land. -/
theorem memWriteBytes_wordBytes_stuck {addr r k : Nat} (hr : r < k) (hin : s.HasBytes addr r)
    (hout : inMemory s.params (addr + r) = false) (w : Word) :
    memWriteBytes addr (wordBytes w k) s = stuck { s with mem := storeBytes s.mem addr (wordBytes w r) } := by
  obtain ⟨i, rfl⟩ : ∃ i, k = r + (i + 1) := ⟨k - r - 1, by omega⟩
  rw [wordBytes_append, memWriteBytes_append, memWriteBytes_next (by simpa using hin), andThen_next,
    List.range_succ_eq_map, List.map_cons, memWriteBytes, length_wordBytes, if_neg (by simp [hout])]

theorem getRest_stuck (hquiet : s.Quiet) (ho : s.ownerOf b = .sw) (hn : n ≤ 64) (hm : m < n)
    (hin : s.HasBytes data m) (hout : inMemory s.params (data + m) = false) :
    getRest b data n (m / 4) s = stuck (lastRead b data n m s) := by
  rw [getRest, lastRead]
  rcases Nat.lt_or_ge (m / 4) (n / 4) with hword | htail
  · obtain ⟨k, ks, hdrop, hk⟩ := drop_wholeWords_cons hn hword
    rw [hdrop, getWords, busRead_quiet hquiet ho, andThen_next,
      memWrite4_stuck (s := s.tick) hout (by omega) (by omega), landed_of_word hword, Nat.sub_self]
    rfl
  · have hwords : n / 4 = m / 4 := by omega
    have hlast : tailWord n = tailWord m := by rw [tailWord, hwords, tailWord]
    have hbyte : data + 4 * (m / 4) + (m - 4 * (m / 4)) = data + m := by omega
    rw [drop_wholeWords_nil hn htail, getWords, andThen_next, getTail, if_neg (by omega), busRead_quiet hquiet ho,
      andThen_next, landed_of_tail htail, hlast, hwords,
      memWriteBytes_wordBytes_stuck (r := m - 4 * (m / 4)) (by omega)
        (fun i hi => by rw [Nat.add_assoc]; exact hin _ (by omega)) (by rwa [hbyte])]
    rfl

theorem memByte_lastRead (hwf : Memory.wf s.mem = true) (hm : m < n) (hn : n ≤ 64) (a : Nat) :
    (lastRead b data n m s).memByte a =
      if h : data + 4 * (m / 4) ≤ a ∧ a < data + landed n m then
        s.bufByte b ⟨a - data, by have := landed_bounds n m; omega⟩
      else s.memByte a := by
  have hland := landed_bounds n m
  have htail : (tailWord m).val = m / 4 := Nat.mod_eq_of_lt (by omega)
  change Memory.get (storeBytes _ _ _) a = _
  rw [storeBytes_get hwf, length_wordBytes]
  by_cases h : data + 4 * (m / 4) ≤ a ∧ a < data + landed n m
  · rw [if_pos (by omega), dif_pos h, wordBytes_getD _ _ _ (by omega), byteOfWord_bufWord _ _ _ _ (by omega)]
    exact congrArg (s.bufByte b) (Fin.ext (by simp only [byteIx, htail]; omega))
  · rw [if_neg (by omega), dif_neg h]
    rfl

/-! ### What has landed where a copy is stuck -/

/-- What a copy to a buffer has done where it is stuck at byte m: the words before it are copied. -/
theorem toDevice_outside (hquiet : s.Quiet) (ho : s.ownerOf b = .sw) (halign : data % 4 = 0) (hn : n ≤ 64)
    (hm : m < n) (hin : s.HasBytes data m) (hout : inMemory s.params (data + m) = false) :
    ∃ t, toDevice b.val data n s = stuck t ∧ t = ({ s with bufMem := t.bufMem } : State).done (m / 4) s.results ∧
      ∀ (b' : BufId) (j : ByteIx), t.bufByte b' j =
        if b' = b ∧ j.val < 4 * (m / 4) then s.memByte (data + j.val) else s.bufByte b' j := by
  have hcount : copyCount (4 * (m / 4)) = m / 4 := by rw [copyCount]; omega
  obtain ⟨t, ht, hstate, hbytes⟩ := toDevice_quiet (b := b) (n := 4 * (m / 4)) hquiet (by omega)
    (fun _ => ⟨halign, ho⟩) (fun j hj => hin j (by omega))
  rw [hcount] at hstate hbytes
  refine ⟨t, toDevice_stuck hn halign hm ht (by rwa [hstate]), hstate, fun b' j => ?_⟩
  rw [hbytes]
  split <;> rfl

/-- What a copy from a buffer has done where it is stuck at byte m: one more read than words before it. -/
theorem fromDevice_outside (hquiet : s.Quiet) (ho : s.ownerOf b = .sw) (halign : data % 4 = 0) (hn : n ≤ 64)
    (hm : m < n) (hin : s.HasBytes data m) (hout : inMemory s.params (data + m) = false)
    (hwf : Memory.wf s.mem = true) :
    ∃ t, fromDevice b.val data n s = stuck t ∧ t = ({ s with mem := t.mem } : State).done (m / 4 + 1) s.results ∧
      (∀ j : ByteIx, j.val < landed n m → t.memByte (data + j.val) = s.bufByte b j) ∧
      ∀ a : Nat, a < data ∨ data + landed n m ≤ a → t.memByte a = s.memByte a := by
  have hcount : copyCount (4 * (m / 4)) = m / 4 := by rw [copyCount]; omega
  obtain ⟨t, ht, hstate, hbytes, hother⟩ := fromDevice_quiet (b := b) (n := 4 * (m / 4)) hquiet (by omega)
    (fun _ => halign) (fun j hj => hin j (by omega)) ho hwf
  have hwft : Memory.wf t.mem = true := (closed_of_moves Move.memory).fromDevice hwf ht
  have hbuf : ∀ j, t.bufByte b j = s.bufByte b j := fun j => by rw [hstate]; rfl
  obtain ⟨hquiett, hot, hint, houtt⟩ : t.Quiet ∧ t.ownerOf b = .sw ∧ t.HasBytes data m ∧
      inMemory t.params (data + m) = false := by rw [hstate]; exact ⟨hquiet, ho, hin, hout⟩
  have hlast := memByte_lastRead (b := b) (data := data) hwft hm hn
  refine ⟨lastRead b data n m t, ?_, ?_, fun j hj => ?_, fun a ha => ?_⟩
  · rw [fromDevice_split hn halign (Nat.div_le_div_right hm.le), ht, andThen_next,
      getRest_stuck hquiett hot hn hm hint houtt]
  · rw [lastRead, hstate, hcount]
    rfl
  · rw [hlast]
    split
    case isTrue => rw [hbuf]; exact congrArg (s.bufByte b) (Fin.ext (Nat.add_sub_cancel_left _ _))
    case isFalse h => exact hbytes j (by omega)
  · have hland := landed_bounds n m
    rw [hlast, dif_neg (by omega)]
    exact hother a (by omega)

end

/-- Settles O38: the checks come first; with no link step a copy then stops at its first access where hardware owns the
buffer, and where software does at the first word or trailing byte outside memory. -/
theorem transferStops : Obligations.TransferStops := by
  intro s buf data n hbuf hdata hsize
  have hto := exec_transferToDevice (n := n) hbuf hdata hsize s
  have hfrom := exec_transferFromDevice (n := n) hbuf hdata hsize s
  refine ⟨fun hrange => ?_, fun hlt hn hpos halign => ?_, fun hlt hn hpos halign hquiet howner => ?_,
    fun hlt hn halign hquiet howner m hm hin hout => ?_⟩
  · rw [hto, hfrom, toDevice_range hrange, fromDevice_range hrange]
    exact ⟨rfl, rfl⟩
  all_goals obtain ⟨b, rfl⟩ : ∃ b : BufId, b.val = buf := ⟨⟨buf, hlt⟩, rfl⟩
  · rw [hto, hfrom, toDevice_misaligned hpos hn halign, fromDevice_misaligned hpos hn halign]
    exact ⟨rfl, rfl⟩
  · rw [ofNat_buf] at howner
    rw [hto, hfrom, fromDevice_owned hquiet howner hpos hn halign]
    refine ⟨fun hmem => ?_, fun hmem => ?_, rfl⟩
    · rw [toDevice_owned hquiet howner hpos hn halign hmem]
      rfl
    · rw [toDevice_stuck_first hn halign hmem]
      rfl
  · rw [ofNat_buf] at howner ⊢
    rw [hto, hfrom]
    simp only [← Fin.ext_iff]
    obtain ⟨t, ht, hcopied⟩ := toDevice_outside hquiet howner halign hn hm hin hout
    refine ⟨⟨t, by rw [ht]; rfl, hcopied⟩, fun hwf => ?_⟩
    obtain ⟨u, hu, hdelivered⟩ := fromDevice_outside hquiet howner halign hn hm hin hout hwf
    exact ⟨u, by rw [hu]; rfl, hdelivered⟩

end Sys2Proof.Machine

/-! SUPPORT. The steps of the link engine (R310 to R326): what each operation a step is made of leaves, as one update of
the state; the steps' guards and what Enable gates; and R326's list, one step at a time. -/

namespace Sys2Proof.Machine

/-! ### The operations a step is made of -/

theorem setIntrIf_update (s : State) (c : Bool) (src : IntrSource) : s.setIntrIf c src =
    { s with intrState := s.intrState ||| if c then bit (s.params.bitOf src).val else 0#32 } := by
  cases c
  · rw [if_neg Bool.false_ne_true, BitVec.or_zero]
    rfl
  · rfl

theorem receive_update (b : BufId) (n : Fin 65) (setup : Bool) (ep : EpId) (im : Vector Byte 64) (s : State) :
    receive b n setup ep im s =
      { s with
        bufMem := s.bufMem.set b.val im
        rx := s.rx ++ [receivedEntry b n setup ep]
        intrState := s.intrState ||| bit (s.params.bitOf .packetReceived).val
          ||| if s.rx.length + 1 = s.params.rxCap then bit (s.params.bitOf .receiveFull).val else 0#32 } := by
  simp only [receive, setIntrIf_update, State.setIntr, State.setBuffer, List.length_append, List.length_singleton,
    decide_eq_true_eq]

theorem setEpBit_false (w : Word) (e : EpId) : setEpBit w e false = w &&& ~~~(bit e.val) := BitVec.or_zero

theorem setEpBit_true (w : Word) (e : EpId) : setEpBit w e true = w ||| bit e.val := by
  ext i hi
  simp only [setEpBit, if_true, BitVec.getElem_or, BitVec.getElem_and, BitVec.getElem_not]
  cases w[i] <;> cases (bit e.val)[i] <;> rfl

theorem clearStalls_update (ep : EpId) (s : State) : clearStalls ep s =
    { s with
      outStall := if s.params.setupClearsStall then s.outStall &&& ~~~(bit ep.val) else s.outStall
      inStall := if s.params.setupClearsStall then s.inStall &&& ~~~(bit ep.val) else s.inStall } := by
  rw [clearStalls]
  cases s.params.setupClearsStall
  · rfl
  · simp only [if_true, setEpBit_false]

/-- The flags of an IN record, each at its bit (R40). -/
theorem withInFlags_bits (c : Word) (r p n : Bool) : withInFlags c r p n =
    (c &&& 0x1FFFFFFF#32) ||| (if r then 0x80000000#32 else 0#32) ||| (if p then 0x40000000#32 else 0#32)
      ||| (if n then 0x20000000#32 else 0#32) := by
  have hready : flag r <<< 31 = if r then 0x80000000#32 else 0#32 := by revert r; decide
  have hpending : flag p <<< 30 = if p then 0x40000000#32 else 0#32 := by revert p; decide
  have hsending : flag n <<< 29 = if n then 0x20000000#32 else 0#32 := by revert n; decide
  rw [withInFlags, hready, hpending, hsending]

/-- The flag `i` of a record, masked out of its word. -/
theorem and_flagMask (c : Word) (i : Nat) (m : Word) (hm : BitVec.twoPow 32 i = m) :
    c &&& m = if c.getLsbD i then m else 0#32 := by
  rw [← hm, BitVec.and_twoPow]

/-- The cancelled record (R315): Sending was not set, so only Ready and Pending change. -/
theorem withInFlags_cancelled {c : Word} (h : sendingBit c = false) :
    withInFlags c false true false = (c &&& 0x7FFFFFFF#32) ||| 0x40000000#32 := by
  rw [sendingBit] at h
  have hmask : 0x7FFFFFFF#32 = 0x1FFFFFFF#32 ||| 0x40000000#32 ||| 0x20000000#32 := rfl
  rw [withInFlags_bits, hmask, BitVec.and_or_distrib_left, BitVec.and_or_distrib_left,
    and_flagMask c 29 0x20000000#32 rfl, h, and_flagMask c 30 0x40000000#32 rfl]
  cases c.getLsbD 30 <;> simp [BitVec.or_assoc]

theorem setupCancel_update (ep : EpId) (cancel : Bool) (s : State) : setupCancel ep cancel s =
    { s with
      configIn := if readyBit (s.configOf ep) && !sendingBit (s.configOf ep) && cancel then
          s.configIn.set ep.val ((s.configOf ep &&& 0x7FFFFFFF#32) ||| 0x40000000#32) else s.configIn } := by
  rw [setupCancel]
  split
  case isTrue h =>
    simp only [Bool.and_eq_true, Bool.not_eq_true'] at h
    rw [withInFlags_cancelled h.1.2]
    rfl
  case isFalse => rfl

theorem take_eq_filterMap_getElem? {α : Type} (l : List α) (n : Nat) :
    l.take n = (List.range n).filterMap (l[·]?) := by
  induction n with
  | zero => rfl
  | succ n ih =>
    rw [List.take_add_one, List.range_succ, List.filterMap_append, ih]
    cases h : l[n]? <;> simp [h]

/-- The packet of an IN transmission: the first Size bytes of the record's buffer (R314, R318). -/
theorem inPacket_bytes (ep : EpId) (acked : Bool) (s : State) : inPacket ep acked s =
    { ep := ep
      bytes := (List.range ((s.configOf ep).extractLsb' 8 7).toNat).filterMap fun j =>
        (s.bufMem[bufIdOf (s.configOf ep)])[j]?
      acked := acked } := by
  simp only [inPacket, take_eq_filterMap_getElem?, Vector.getElem?_toList, sizeField]

/-! ### Enable gating (R317) -/

section
variable {s : State} (hoff : s.enabled = false)
include hoff

theorem linkRxSetup_disabled (ep : EpId) (n : Fin 65) (image : Vector Byte 64) (cancel outToggle inToggle : Bool) :
    linkRxSetup ep n image cancel outToggle inToggle s = none := by
  rw [linkRxSetup, hoff]
  rfl

theorem linkRxOut_disabled (ep : EpId) (n : Fin 65) (image : Vector Byte 64) (outToggle : Bool) :
    linkRxOut ep n image outToggle s = none := by
  rw [linkRxOut, hoff]
  rfl

theorem linkInStart_disabled (ep : EpId) (pending : Bool) : linkInStart ep pending s = none := by
  rw [linkInStart, hoff]
  rfl

theorem linkSof_disabled (f : BitVec 11) : linkSof f s = none := by
  rw [linkSof, hoff]
  rfl

/-- Every kind of event but Disconnected and Powered needs Enable (R319). -/
theorem linkEvent_disabled {kind : EventKind} (hd : kind ≠ .disconnected) (hp : kind ≠ .powered) (ls : BitVec 3) :
    linkEvent kind ls s = none := by
  rw [linkEvent, hoff]
  cases kind with
  | disconnected => exact absurd rfl hd
  | powered => exact absurd rfl hp
  | _ => rfl

end

/-! ### A step in a running state and in a halted one (R325) -/

theorem devStep_running {s : State} (h : s.isHalted = false) (d : DevStep) : devStep d s = devEffect d s := by
  rw [devStep, h]
  rfl

theorem devStep_halted {s : State} (h : s.isHalted = true) (d : DevStep) : devStep d s = none := by
  rw [devStep, h]
  rfl

/-! ### Receptions (R310, R311)

The two theorems stand in a namespace of their own: the model's steps already have the obligations' names. -/

/-- Settles O46: the guard, and the operations of the step as updates, one after the other. -/
theorem LinkEngine.linkRxSetup : Obligations.LinkRxSetup := by
  intro s ep n image cancel outToggle inToggle hrun
  rw [devStep_running hrun, devEffect, Machine.linkRxSetup]
  refine ⟨?_, fun t b rest hqueue h => ?_⟩
  · cases hqueue : s.avSetup <;> simp [State.enabled, and_assoc]
  · obtain ⟨-, h⟩ := Option.ite_none_right_eq_some.1 h
    rw [hqueue, Option.some.injEq] at h
    rw [← h, receive_update, setIntrIf_update, clearStalls_update, setupCancel_update]
    simp only [List.isEmpty_iff]
    rfl

/-- Settles O47: the guard, and the operations of the step as updates, one after the other. -/
theorem LinkEngine.linkRxOut : Obligations.LinkRxOut := by
  intro s ep n image outToggle hrun
  rw [devStep_running hrun, devEffect, Machine.linkRxOut]
  refine ⟨?_, fun t b rest hqueue h => ?_⟩
  · cases hqueue : s.avOut <;> simp [State.enabled, and_assoc]
  · obtain ⟨-, h⟩ := Option.ite_none_right_eq_some.1 h
    rw [hqueue, Option.some.injEq] at h
    rw [← h, receive_update, setIntrIf_update]
    simp only [List.isEmpty_iff]

/-! ### IN transmissions (R313, R314, R318) -/

theorem withInFlags_started (c : Word) (p : Bool) : withInFlags c true p true =
    (c &&& 0x1FFFFFFF#32) ||| 0xA0000000#32 ||| if p then 0x40000000#32 else 0#32 := by
  rw [withInFlags_bits]
  cases p <;> simp [BitVec.or_assoc]

theorem withInFlags_ended (c : Word) (p : Bool) : withInFlags c false p false =
    (c &&& 0x1FFFFFFF#32) ||| if p then 0x40000000#32 else 0#32 := by
  rw [withInFlags_bits]
  simp

/-- After a failure Ready is as before (R318). -/
theorem withInFlags_failed (c : Word) (p : Bool) : withInFlags c (readyBit c) p false =
    (c &&& 0x1FFFFFFF#32) ||| (c &&& 0x80000000#32) ||| if p then 0x40000000#32 else 0#32 := by
  rw [withInFlags_bits, and_flagMask c 31 0x80000000#32 rfl, readyBit]
  simp

/-- Settles O48: each guard decides its step, and the record's new flags are its bits. -/
theorem linkInTransmission : Obligations.LinkInTransmission := by
  intro s ep pending inToggle err hrun
  simp only [devStep_running hrun, devEffect, linkInStart, linkInComplete, linkInFail, inPacket_bytes,
    setIntrIf_update, setEpBit_true, withInFlags_ended, withInFlags_failed, Bool.and_eq_true, Bool.not_eq_true',
    and_assoc]
  refine ⟨fun henable hep hstall hready hidle => ?_, fun hguard => if_neg hguard, fun hsending => if_pos hsending,
    fun hidle => ?_, fun hsending hiso => if_pos ⟨hsending, hiso⟩, fun hguard => ?_⟩
  · rw [if_pos ⟨henable, hep, hstall, hready, hidle⟩, hready, withInFlags_started]
    rfl
  · rw [hidle]
    rfl
  · refine if_neg fun ⟨hsending, hiso⟩ => ?_
    rw [hsending, hiso] at hguard
    simp at hguard

/-! ### Bus events, start of frame and level steps (R319 to R321) -/

theorem linkEvent_taken {kind : EventKind} {s : State} (h : kind.needsEnable = true → s.enabled = true)
    (ls : BitVec 3) :
    linkEvent kind ls s = some (eventStatus kind { s.setIntr kind.source with linkState := ls }) := by
  rw [linkEvent, if_neg]
  intro hgated
  obtain ⟨hneeds, hdisabled⟩ := Bool.and_eq_true_iff.1 hgated
  simp [h hneeds] at hdisabled

theorem linkLevel_of_iff {src : LevelSource} {s : State} {condition : Prop}
    (h : src.active s = true ↔ condition) :
    (condition → linkLevel src s = some (s.setIntr src.source)) ∧ (¬condition → linkLevel src s = none) :=
  ⟨fun hc => if_pos (h.2 hc), fun hc => if_neg (mt h.1 hc)⟩

/-- Settles O49: an event is taken unless it needs Enable and lacks it, a level step where its source is active. -/
theorem linkBusEvents : Obligations.LinkBusEvents := by
  intro s hrun
  simp only [devStep_running hrun, devEffect]
  refine ⟨fun ls => ⟨rfl, rfl, fun henable => ?_⟩, fun f henable => if_pos henable, fun hdisabled => ?_, ?_⟩
  · have htaken (kind : EventKind) := linkEvent_taken (kind := kind) (fun _ => henable) ls
    exact ⟨htaken _, htaken _, htaken _, htaken _, htaken _, htaken _, htaken _, htaken _, htaken _⟩
  · exact ⟨linkSof_disabled hdisabled, fun _ ls hd hp => linkEvent_disabled hdisabled hd hp ls⟩
  · intro src i condition hmem
    simp only [List.mem_cons, List.not_mem_nil, or_false, Prod.mk.injEq] at hmem
    rcases hmem with ⟨rfl, rfl, rfl⟩ | ⟨rfl, rfl, rfl⟩ | ⟨rfl, rfl, rfl⟩ | ⟨rfl, rfl, rfl⟩ | ⟨rfl, rfl, rfl⟩ <;>
      exact linkLevel_of_iff (by simp [LevelSource.active, List.length_pos_iff])

/-! ### What Enable and a verdict leave (R317, R325) -/

theorem devStep_none_of_devEffect {d : DevStep} {s : State} (h : devEffect d s = none) : devStep d s = none := by
  rw [devStep, h, ite_self]

/-- Settles O50: the gated steps find Enable missing, the others do not look at it, and a verdict stops them all. -/
theorem linkGating : Obligations.LinkGating := by
  refine ⟨fun s hoff => ?_, fun s d hverdict => devStep_halted ((isHalted_iff s).2 hverdict) d⟩
  refine ⟨fun ep n image cancel outToggle inToggle => ?_, fun ep n image outToggle => ?_, fun ep pending => ?_,
    fun f => ?_, fun kind ls hd hp => ?_, fun hrun => ?_⟩
  · exact devStep_none_of_devEffect (linkRxSetup_disabled hoff ep n image cancel outToggle inToggle)
  · exact devStep_none_of_devEffect (linkRxOut_disabled hoff ep n image outToggle)
  · exact devStep_none_of_devEffect (linkInStart_disabled hoff ep pending)
  · exact devStep_none_of_devEffect (linkSof_disabled hoff f)
  · exact devStep_none_of_devEffect (linkEvent_disabled hoff hd hp ls)
  · simp only [devStep_running hrun, devEffect]
    refine ⟨fun ep pending inToggle hsending => ?_, fun ep err pending hsending hiso => ?_, fun src hactive => ?_⟩
    · simp [linkInComplete, hsending]
    · simp [linkInFail, hsending, hiso]
    · simp [linkLevel, hactive]

/-! ### The closed list (R326) -/

theorem ready_setConfig {s : State} {ep e : EpId} {r p n : Bool} (hr : r = true → readyBit (s.configOf ep) = true)
    (h : readyBit ((s.setConfig ep (withInFlags (s.configOf ep) r p n)).configOf e) = true) :
    readyBit (s.configOf e) = true := by
  rw [configOf_setConfig] at h
  split at h
  case isTrue heq => exact heq ▸ hr ((withInFlags_fields (s.configOf ep) r p n).1 ▸ h)
  case isFalse => exact h

theorem ready_setupCancel {s : State} {ep e : EpId} {cancel : Bool}
    (h : readyBit ((setupCancel ep cancel s).configOf e) = true) : readyBit (s.configOf e) = true := by
  rw [setupCancel] at h
  split at h
  case isTrue => exact ready_setConfig (r := false) nofun h
  case isFalse => exact h

/-- What one step of `DEV` does to the queues, TXLOG, buffer memory, Ready and IN_SENT (R326), beside what `DevLe` and
`devEffect_pending` say of it. -/
structure ListedWrites (s t : State) : Prop where
  avOut : t.avOut = s.avOut ∨ ∃ b, s.avOut = b :: t.avOut
  avSetup : t.avSetup = s.avSetup ∨ ∃ b, s.avSetup = b :: t.avSetup
  rx : ∃ new, t.rx = s.rx ++ new ∧ new.length ≤ 1
  txLog : ∃ new, t.txLog = s.txLog ++ new ∧ new.length ≤ 1
  buf : ∀ b : BufId, t.bufMem[b] ≠ s.bufMem[b] → s.avOut = b :: t.avOut ∨ s.avSetup = b :: t.avSetup
  ready : ∀ e : EpId, readyBit (t.configOf e) = true → readyBit (s.configOf e) = true
  sent : ∀ e : EpId, epBit s.inSent e = true → epBit t.inSent e = true

theorem ListedWrites.refl (s : State) : ListedWrites s s where
  avOut := .inl rfl
  avSetup := .inl rfl
  rx := ⟨[], (List.append_nil _).symm, Nat.zero_le _⟩
  txLog := ⟨[], (List.append_nil _).symm, Nat.zero_le _⟩
  buf _ h := absurd rfl h
  ready _ := id
  sent _ := id

/-- Only the buffer a reception writes differs afterwards. -/
theorem eq_of_setBuffer_ne {s : State} {b b' : BufId} {image : Vector Byte 64}
    (h : (s.setBuffer b image).bufMem[b'] ≠ s.bufMem[b']) : b' = b := by
  by_contra hne
  have hval : b.val ≠ b'.val := fun heq => hne (Fin.ext heq.symm)
  exact h (by simp [State.setBuffer, hval])

theorem epBit_setEpBit_of_epBit {w : Word} {ep e : EpId} (h : epBit w e = true) :
    epBit (setEpBit w ep true) e = true := by
  rw [epBit_setEpBit, h, ite_self]

theorem devStep_listedWrites {d : DevStep} {s t : State} (h : devStep d s = some t) : ListedWrites s t := by
  obtain ⟨hrun, heffect⟩ := devStep_eq_some.1 h
  cases d with
  | rxSetup ep n image cancel outToggle inToggle =>
    obtain ⟨hguard, hnext⟩ := LinkEngine.linkRxSetup s ep n image cancel outToggle inToggle hrun
    obtain ⟨-, -, -, hqueue, -⟩ := hguard.1 (h ▸ rfl)
    obtain ⟨b, rest, hqueue⟩ := List.exists_cons_of_ne_nil hqueue
    cases hnext t b rest hqueue h
    exact { ListedWrites.refl s with
      avSetup := .inr ⟨b, hqueue⟩
      rx := ⟨[_], rfl, le_rfl⟩
      buf := fun _ hne => .inr (eq_of_setBuffer_ne hne ▸ hqueue)
      ready := fun e hready => ready_setupCancel (ep := ep) (cancel := cancel) (by rwa [setupCancel_update]) }
  | rxOut ep n image outToggle =>
    obtain ⟨hguard, hnext⟩ := LinkEngine.linkRxOut s ep n image outToggle hrun
    obtain ⟨-, -, -, -, hqueue, -⟩ := hguard.1 (h ▸ rfl)
    obtain ⟨b, rest, hqueue⟩ := List.exists_cons_of_ne_nil hqueue
    cases hnext t b rest hqueue h
    exact { ListedWrites.refl s with
      avOut := .inr ⟨b, hqueue⟩
      rx := ⟨[_], rfl, le_rfl⟩
      buf := fun _ hne => .inl (eq_of_setBuffer_ne hne ▸ hqueue) }
  | inStart =>
    obtain ⟨-, heffect⟩ := Option.ite_none_right_eq_some.1 heffect
    cases heffect
    exact { ListedWrites.refl s with ready := fun e => ready_setConfig id }
  | inComplete =>
    obtain ⟨-, heffect⟩ := Option.ite_none_right_eq_some.1 heffect
    cases heffect
    exact { ListedWrites.refl s with
      txLog := ⟨[_], rfl, le_rfl⟩
      ready := fun e => ready_setConfig (s := s) nofun
      sent := fun e => epBit_setEpBit_of_epBit }
  | inFail =>
    obtain ⟨-, heffect⟩ := Option.ite_none_right_eq_some.1 heffect
    rw [setIntrIf_update] at heffect
    cases heffect
    exact { ListedWrites.refl s with
      txLog := ⟨[_], rfl, le_rfl⟩
      ready := fun e => ready_setConfig (s := s) id }
  | event kind =>
    obtain ⟨-, heffect⟩ := Option.ite_none_left_eq_some.1 heffect
    cases heffect
    cases kind <;> exact { ListedWrites.refl s with }
  | sof | level =>
    obtain ⟨-, heffect⟩ := Option.ite_none_right_eq_some.1 heffect
    cases heffect
    exact { ListedWrites.refl s with }

/-- Settles O51, from what a step keeps (`devEffect_frame`), what steps compose to (`DevLe`, `devEffect_pending`) and
what only one step does (`ListedWrites`). -/
theorem linkWritesOnlyItsList : Obligations.LinkWritesOnlyItsList := by
  intro d s t h
  have heffect := (devStep_eq_some.1 h).2
  have hle := devEffect_le heffect
  have hlist := devStep_listedWrites h
  exact ⟨hle.sw, (devEffect_frame heffect).2, hlist.avOut, hlist.avSetup, hlist.rx, hlist.txLog, hlist.buf, hle.stall,
    fun e => ⟨hle.held e, hlist.ready e, hlist.sent e⟩, fun _ _ => devEffect_pending heffect⟩

end Sys2Proof.Machine

/-! SUPPORT. What a step records (R62, R345): a fault names a verdict only with its reason in FAULTS, a refusal sets
REFUSED; and a step that goes on has recorded nothing and keeps the parameters and the caller's list. -/

namespace Sys2Proof.Machine

/-! ### A verdict and its record -/

@[simp] theorem reason_ofReason (r : FaultReason) (s : State) : (Fault.ofReason r s).reason = some r := by
  cases r <;> rfl

@[simp] theorem stopped_ofReason (r : FaultReason) (s : State) : (Fault.ofReason r s).stopped = s := by
  cases r <;> rfl

theorem mem_addFault (r : FaultReason) (fs : List FaultReason) : r ∈ addFault r fs := by
  unfold addFault
  split
  case isTrue h => exact h
  case isFalse => exact List.mem_append_right fs (List.mem_singleton_self r)

/-- A fault that is a verdict of R345 carries a state with its reason in FAULTS. -/
def Fault.Recorded (f : Fault) : Prop := ∀ r, f.reason = some r → r ∈ f.stopped.faults

/-- The outcome is no fault, or one that is recorded. -/
def FaultsRecorded {α : Type} (o : Host.Outcome α Fault Refusal) : Prop := ∀ f, o = .fault f → f.Recorded

namespace FaultsRecorded

variable {α β : Type}

theorem next (a : α) : FaultsRecorded (.next a) := fun _ h => by cases h

theorem raise (r : FaultReason) (s : State) : FaultsRecorded (Machine.raise r s : Host.Outcome α Fault Refusal) := by
  intro f hf r' hr'
  cases hf
  rw [reason_ofReason] at hr'
  cases hr'
  rw [stopped_ofReason]
  exact mem_addFault r s.faults

theorem refuse (reason : State → Refusal) (s : State) :
    FaultsRecorded (Machine.refuse reason s : Host.Outcome α Fault Refusal) := fun _ h => by cases h

/-- Where no step exists no verdict is given (R81, R140, R345). -/
theorem of_no_reason {f : Fault} (h : f.reason = none) : FaultsRecorded (.fault f : Host.Outcome α Fault Refusal) := by
  intro f' hf r hr
  cases hf
  exact absurd (h.symm.trans hr) (Option.some_ne_none r).symm

theorem stuck (s : State) : FaultsRecorded (Machine.stuck s : Host.Outcome α Fault Refusal) := of_no_reason rfl

theorem andThen {o : Host.Outcome α Fault Refusal} {f : α → Host.Outcome β Fault Refusal} (ho : FaultsRecorded o)
    (hf : ∀ a, FaultsRecorded (f a)) : FaultsRecorded (Machine.andThen o f) := by
  intro r hr
  rcases andThen_eq_fault.1 hr with h | ⟨a, -, h⟩
  · exact ho r h
  · exact hf a r h

theorem ite {c : Prop} [Decidable c] {o o' : Host.Outcome α Fault Refusal} (ho : FaultsRecorded o)
    (ho' : FaultsRecorded o') : FaultsRecorded (if c then o else o') := by
  split
  · exact ho
  · exact ho'

/-! ### The transactions (R141 to R192) -/

theorem regRead (r : Reg) (s : State) : FaultsRecorded (Machine.regRead r s) := by
  cases r with
  | avOutBuffer | avSetupBuffer => exact refuse _ s
  | rxFifo =>
    rw [Machine.regRead, readRxFifo]
    split <;> exact next _
  | _ => exact next _

theorem inHandOff (e : EpId) (v : Word) (s : State) : FaultsRecorded (Machine.inHandOff e v s) :=
  ite (raise _ s) (ite (raise _ s) (next _))

theorem regWrite (r : Reg) (v : Word) (s : State) : FaultsRecorded (Machine.regWrite r v s) := by
  cases r with
  | usbstat | rxFifo | outDataToggle | inDataToggle | phyPinsSense => exact refuse _ s
  | alertTest | usbctrl | setNakOut | phyPinsDrive | phyConfig => exact ite (refuse _ s) (next _)
  | avOutBuffer | avSetupBuffer => exact ite (raise _ s) (ite (raise _ _) (next _))
  | configIn e =>
    exact ite (refuse _ s) (ite (raise _ s) (ite (andThen (inHandOff e v s) fun _ => next _) (next _)))
  | _ => exact next _

theorem bufRead (b : BufId) (k : WordIx) (s : State) : FaultsRecorded (Machine.bufRead b k s) :=
  ite (raise _ s) (next _)

theorem bufWrite (b : BufId) (k : WordIx) (v : Word) (s : State) : FaultsRecorded (Machine.bufWrite b k v s) :=
  ite (raise _ s) (next _)

theorem registerRead (r : Reg) (s : State) : FaultsRecorded (readCommand (Machine.regRead r) s) :=
  andThen (regRead r s) fun _ => next _

theorem registerWrite (r : Reg) (v : Word) (s : State) : FaultsRecorded (writeCommand (Machine.regWrite r v) s) :=
  andThen (regWrite r v s) fun _ => next _

theorem devRead (r : Reg) (s : State) : FaultsRecorded (Machine.devRead r s) :=
  andThen (regRead r _) fun _ => next _

theorem devWrite (r : Reg) (v : Word) (s : State) : FaultsRecorded (Machine.devWrite r v s) :=
  andThen (regWrite r v _) fun _ => next _

theorem modify (r : Reg) (f : Word → Word) (s : State) : FaultsRecorded (Machine.modify r f s) :=
  andThen (devRead r s) fun _ => devWrite r _ _

theorem busBufRead (b : BufId) (k : WordIx) (s : State) : FaultsRecorded (busRead (Machine.bufRead b k) s) :=
  andThen (bufRead b k _) fun _ => next _

theorem busBufWrite (b : BufId) (k : WordIx) (v : Word) (s : State) :
    FaultsRecorded (busWrite (Machine.bufWrite b k v) s) := andThen (bufWrite b k v _) fun _ => next _

/-! ### The loops of the operations (R200, R290, R291) -/

theorem supplyScan (ids : List Nat) (m : Word) (s : State) : FaultsRecorded (Machine.supplyScan ids m s) := by
  induction ids generalizing m s with
  | nil => exact next _
  | cons i ids ih =>
    have supply (r : Reg) (s : State) : FaultsRecorded
        (Machine.andThen (Machine.devWrite r (availWord i) s) (Machine.supplyScan ids (m &&& ~~~(bit i)))) :=
      andThen (devWrite r _ s) (ih _)
    exact ite (andThen (devRead _ s) fun _ => ite (andThen (devRead _ _) fun _ => ite (next _) (supply _ _))
      (supply _ _)) (ih m s)

theorem putWords (b : BufId) (data : Nat) (ks : List WordIx) (s : State) :
    FaultsRecorded (Machine.putWords b data ks s) := by
  induction ks generalizing s with
  | nil => exact next _
  | cons k ks ih => exact andThen (ite (next _) (stuck s)) fun w => andThen (busBufWrite b k w s) ih

theorem putTail (b : BufId) (data n : Nat) (s : State) : FaultsRecorded (Machine.putTail b data n s) :=
  ite (next s) (andThen (ite (next _) (stuck s)) fun _ => busBufWrite b _ _ s)

theorem toDevice (buf data n : Nat) (s : State) : FaultsRecorded (Machine.toDevice buf data n s) :=
  ite (raise _ s) (ite (raise _ s) (andThen (putWords _ data _ s) (putTail _ data n)))

theorem getWords (b : BufId) (data : Nat) (ks : List WordIx) (s : State) :
    FaultsRecorded (Machine.getWords b data ks s) := by
  induction ks generalizing s with
  | nil => exact next _
  | cons k ks ih => exact andThen (busBufRead b k s) fun _ => andThen (ite (next _) (stuck _)) ih

theorem memWriteBytes (addr : Nat) (bytes : List Byte) (s : State) :
    FaultsRecorded (Machine.memWriteBytes addr bytes s) := by
  induction bytes generalizing addr s with
  | nil => exact next _
  | cons v vs ih => exact ite (ih _ _) (stuck s)

theorem getTail (b : BufId) (data n : Nat) (s : State) : FaultsRecorded (Machine.getTail b data n s) :=
  ite (next s) (andThen (busBufRead b _ s) fun _ => memWriteBytes _ _ _)

theorem fromDevice (buf data n : Nat) (s : State) : FaultsRecorded (Machine.fromDevice buf data n s) :=
  ite (raise _ s) (ite (raise _ s) (andThen (getWords _ data _ s) (getTail _ data n)))

/-! ### The instructions -/

/-- `packet_collected` (R262). -/
theorem packetCollected (s : State) : FaultsRecorded (execPacketCollected s) := by
  refine andThen (devRead _ s) fun p => ?_
  split
  · exact next _
  · exact andThen (devWrite _ _ _) fun _ => andThen (devRead _ _) fun _ => next _

/-- A fault of an instruction is recorded, for each of its stops is a verdict raised or a stuck `MEM` access. -/
theorem exec (i : Instr) (s : State) : FaultsRecorded (Machine.exec i s) := by
  cases i with
  | rdIntrState | rdIntrEnable | rdIntrTest | rdAlertTest | rdUsbctrl | rdEpOutEnable | rdEpInEnable | rdUsbstat
  | rdAvoutbuffer | rdAvsetupbuffer | rdRxfifo | rdRxenableSetup | rdRxenableOut | rdSetNakOut | rdInSent | rdOutStall
  | rdInStall | rdConfigin0 | rdConfigin1 | rdConfigin2 | rdConfigin3 | rdConfigin4 | rdConfigin5 | rdConfigin6
  | rdConfigin7 | rdConfigin8 | rdConfigin9 | rdConfigin10 | rdConfigin11 | rdOutIso | rdInIso | rdOutDataToggle
  | rdInDataToggle | rdPhyPinsSense | rdPhyPinsDrive | rdPhyConfig =>
    rw [Machine.exec]
    exact registerRead _ s
  | rdBuf b k => exact andThen (bufRead b k s) fun _ => next _
  | wrBuf b k v => exact andThen (bufWrite b k v s) fun _ => next _
  | wrBufB | wrBufH => exact next _
  | rdUnmapped090 | wrUnmapped090 | rdUnmapped0A0 | wrUnmapped0A0 | rdUnmapped0C0 | wrUnmapped0C0
  | rdUnmapped100 | wrUnmapped100 | rdUnmapped200 | wrUnmapped200 | rdUnmapped400 | wrUnmapped400 => exact refuse _ s
  | init =>
    rw [Machine.exec, execInit]
    exact andThen (devWrite _ _ s) fun _ => next _
  | connect | disconnect => exact andThen (modify _ _ s) fun _ => next _
  | connected =>
    rw [Machine.exec, execConnected]
    exact andThen (devRead _ s) fun _ => next _
  | configureOutEndpoint =>
    exact ite (ite (next _) (andThen (modify _ _ s) fun _ => andThen (modify _ _ _) fun _ =>
      andThen (modify _ _ _) fun _ => andThen (modify _ _ _) fun _ => next _)) (refuse _ s)
  | configureInEndpoint | setEpStalling =>
    exact ite (ite (next _) (andThen (modify _ _ s) fun _ => andThen (modify _ _ _) fun _ => next _)) (refuse _ s)
  | setDeviceAddress => exact ite (ite (next _) (andThen (modify _ _ s) fun _ => next _)) (refuse _ s)
  | supplyBuffers => exact ite (andThen (supplyScan _ _ s) fun _ => next _) (refuse _ s)
  | sendPacket =>
    exact ite (ite (raise _ s) (andThen (ite (toDevice _ _ _ s) (next s)) fun _ => andThen (devWrite _ _ _) fun _ =>
      andThen (devRead _ _) fun _ => andThen (devWrite _ _ _) fun _ => next _)) (refuse _ s)
  | packetCollected => exact packetCollected s
  | recvPacket =>
    exact ite (andThen (devRead _ s) fun _ => ite (next _) (andThen (devRead _ _) fun _ => ite (raise _ _)
      (andThen (ite (fromDevice _ _ _ _) (next _)) fun _ => next _))) (refuse _ s)
  | transferToDevice => exact ite (andThen (toDevice _ _ _ s) fun _ => next _) (refuse _ s)
  | transferFromDevice => exact ite (andThen (fromDevice _ _ _ s) fun _ => next _) (refuse _ s)
  | interruptEnable | interruptDisable => exact ite (andThen (modify _ _ s) fun _ => next _) (refuse _ s)
  | _ =>
    rw [Machine.exec]
    exact registerWrite _ _ s

end FaultsRecorded

/-! ### What a refusal records -/

/-- The refusal carries a stopped state in which REFUSED is set (R62). -/
def Refusal.Recorded (r : Refusal) : Prop := ∃ t, r.stopped = some t ∧ t.refused = true

theorem Refusal.OfTransaction.recorded {r : Refusal} (h : r.OfTransaction) : r.Recorded := by
  cases r with
  | unmappedOffset t | writeToReadOnly t | readOfWriteOnly t | unknownFieldWrite t | inTransferBusy t =>
    exact ⟨t, rfl, h⟩
  | _ => exact h.elim

theorem exec_refusal_recorded {i : Instr} {s : State} {r : Refusal} (h : exec i s = .refused r) : r.Recorded := by
  cases hfits : i.wellFormed with
  | false =>
    rw [exec_of_not_wellFormed hfits] at h
    cases h
    exact ⟨_, rfl, rfl⟩
  | true => exact (exec_transactionRefusals hfits s r h).recorded

theorem refuseCommand_recorded {e : DecodeError} {s : State} {r : Refusal} (h : refuseCommand e s = .refused r) :
    r.Recorded := by
  cases e <;> cases h <;> exact ⟨_, rfl, rfl⟩

/-! ### What a step does -/

/-- What a step is: none from a halted state; from a running one a step of `DEV`, the end of the list, the refusal of a
command that is no instruction, or an instruction run whole (R140, R325). -/
theorem step_cases (s : State) :
    s.isHalted = true ∧ step s = .fault (.halted s) ∨
    s.isHalted = false ∧
      ((∃ d q, step s = .next (devTake { s with sched := q } d)) ∨ step s = .fault (.runEnded s) ∨
        (∃ e, step s = refuseCommand e { s with sched := s.sched.tail }) ∨
        ∃ i, step s = andThen (exec i ({ s with sched := s.sched.tail } : State).start) fun t => .next t.retire) := by
  cases hrun : s.isHalted with
  | true => exact .inl ⟨rfl, step_halted hrun⟩
  | false =>
    refine .inr ⟨rfl, ?_⟩
    rw [step, turn, if_neg (by simp [hrun])]
    split
    case h_1 d ds _ _ => exact .inl ⟨d, ds :: _, rfl⟩
    case h_2 =>
      rw [swTurn]
      split
      case h_1 => exact .inr (.inl rfl)
      case h_2 =>
        split
        case h_1 e _ => exact .inr (.inr (.inl ⟨e, rfl⟩))
        case h_2 i _ => exact .inr (.inr (.inr ⟨i, rfl⟩))

theorem isHalted_eq_false_iff (s : State) : s.isHalted = false ↔ s.faults = [] ∧ s.refused = false := by
  rw [State.isHalted, Bool.or_eq_false_iff, Bool.not_eq_false', List.isEmpty_iff, and_comm]

theorem step_faultsRecorded (s : State) : FaultsRecorded (step s) := by
  rcases step_cases s with ⟨-, h⟩ | ⟨-, ⟨d, q, h⟩ | h | ⟨e, h⟩ | ⟨i, h⟩⟩ <;> rw [h]
  · exact .of_no_reason rfl
  · exact .next _
  · exact .of_no_reason rfl
  · cases e <;> exact .refuse _ _
  · exact .andThen (.exec i _) fun _ => .next _

theorem step_refusal_recorded {s : State} {r : Refusal} (hr : step s = .refused r) : r.Recorded := by
  rcases step_cases s with ⟨-, h⟩ | ⟨-, ⟨d, q, h⟩ | h | ⟨e, h⟩ | ⟨i, h⟩⟩ <;> rw [h] at hr
  · cases hr
  · cases hr
  · cases hr
  · exact refuseCommand_recorded hr
  · rcases andThen_eq_refused.1 hr with hr | ⟨t, -, hr⟩
    · exact exec_refusal_recorded hr
    · cases hr

/-- Settles O54: every stop of a step is recorded, and no recorded reason is lost, for a halted state stops as it is and
a running one has none. -/
theorem verdictsRecorded : Obligations.VerdictsRecorded := by
  refine fun s => ⟨fun f hf => ⟨step_faultsRecorded s f hf, ?_⟩, fun r => step_refusal_recorded⟩
  cases hrun : s.isHalted with
  | true =>
    rw [step_halted hrun] at hf
    cases hf
    exact fun _ => id
  | false =>
    rw [((isHalted_eq_false_iff s).1 hrun).1]
    exact List.forall_mem_nil _

/-! ### The caller's list (R21) -/

theorem collects_prog (sent : Word) (es : List EpId) (s : State) : (es.foldl (collect sent) s).prog = s.prog := by
  induction es generalizing s with
  | nil => rfl
  | cons e es ih =>
    refine (ih _).trans ?_
    unfold collect
    split
    · split <;> rfl
    · rfl

theorem regRead_prog {r : Reg} {s t : State} {v : Word} (h : regRead r s = .next (v, t)) : t.prog = s.prog := by
  cases r with
  | avOutBuffer | avSetupBuffer => exact absurd h (refuse_ne_next _ _ _)
  | inSent =>
    cases h
    exact collects_prog _ _ s
  | rxFifo =>
    rw [regRead, readRxFifo] at h
    split at h <;> cases h <;> rfl
  | _ => cases h; rfl

theorem storeConfig_prog (e : EpId) (v : Word) (s : State) : (storeConfig e v s).prog = s.prog := by
  obtain ⟨p, n, hstore⟩ := storeConfig_eq e v s
  rw [hstore]
  rfl

theorem writeConfigIn_prog {e : EpId} {v : Word} {s t : State} (h : writeConfigIn e v s = .next t) :
    t.prog = s.prog := by
  simp only [writeConfigIn] at h
  split_ifs at h
  · cases h
  · cases h
  · obtain ⟨u, hu, ht⟩ := andThen_eq_next.1 h
    obtain ⟨-, -, rfl⟩ := inHandOff_eq_next hu
    cases ht
    exact storeConfig_prog e v _
  · cases h
    exact storeConfig_prog e v s

theorem regWrite_prog {r : Reg} {v : Word} {s t : State} (h : regWrite r v s = .next t) : t.prog = s.prog := by
  cases r with
  | usbstat | rxFifo | outDataToggle | inDataToggle | phyPinsSense => exact absurd h (refuse_ne_next _ _ _)
  | configIn e => exact writeConfigIn_prog h
  | avOutBuffer | avSetupBuffer =>
    simp only [regWrite, writeAvOut, writeAvSetup] at h
    split_ifs at h <;> cases h
    rfl
  | alertTest | usbctrl | setNakOut | phyPinsDrive | phyConfig =>
    simp only [regWrite] at h
    split at h <;> cases h
    rfl
  | _ => cases h; rfl

theorem bufWrite_prog {b : BufId} {k : WordIx} {v : Word} {s t : State} (h : bufWrite b k v s = .next t) :
    t.prog = s.prog := by
  rw [bufWrite] at h
  split at h <;> cases h
  rfl

theorem closed_prog (l : List Cmd) : Closed fun s => s.prog = l where
  read _ _ _ _ hs h := (regRead_prog h).trans hs
  write _ _ _ _ hs h := (regWrite_prog h).trans hs
  buf _ _ _ _ _ hs h := (bufWrite_prog h).trans hs
  dev _ _ _ hs h := (congrArg SwPart.prog (devEffect_frame (devStep_eq_some.1 h).2).1).trans hs
  book _ _ _ _ hs := hs
  mem _ _ _ hs := hs

theorem closed_params (p : Params) : Closed fun s => s.params = p :=
  closed_of_moves fun hmove hs => hmove.params_eq.trans hs

theorem closed_running : Closed fun s => s.isHalted = false :=
  closed_of_moves fun hmove hs => hmove.isHalted_eq.trans hs

theorem isHalted_of_step_next {s t : State} (h : step s = .next t) : s.isHalted = false := by
  rw [← Bool.not_eq_true]
  intro hrun
  rw [step_halted hrun] at h
  cases h

/-- Settles O55: only a running state steps, and what a step is made of records no verdict and writes neither the
parameters nor the list. -/
theorem nextStateRuns : Obligations.NextStateRuns := by
  intro s t h
  obtain ⟨hfaults, hrefused⟩ := (isHalted_eq_false_iff t).1 (closed_running.step (isHalted_of_step_next h) h)
  exact ⟨hfaults, hrefused, (closed_params s.params).step rfl h, (closed_prog s.prog).step rfl h⟩

end Sys2Proof.Machine

/-! SUPPORT. Hardware-owned buffers (R389): with no link step due, only a write of buffer memory changes a buffer, and
it raises a fault where hardware owns the buffer (R192). The operations that write buffer memory do so before any
transaction that could give a buffer back to software, so for them the owner is carried along with the bytes. -/

namespace Sys2Proof.Machine

/-! ### What an outcome answers -/

/-- The outcome is a stop, or its answer has the property. -/
def Answers {α : Type} (Q : α → Prop) (o : Host.Outcome α Fault Refusal) : Prop := ∀ a, o = .next a → Q a

namespace Answers

variable {α β : Type} {Q : α → Prop} {R : β → Prop}

theorem next {a : α} (h : Q a) : Answers Q (.next a) := by
  intro a' ha
  cases ha
  exact h

theorem raise (r : FaultReason) (s : State) : Answers Q (Machine.raise r s) := fun a h => absurd h (raise_ne_next r s a)

theorem refuse (reason : State → Refusal) (s : State) : Answers Q (Machine.refuse reason s) := fun a h =>
  absurd h (refuse_ne_next reason s a)

theorem stuck (s : State) : Answers Q (Machine.stuck s) := fun a h => absurd h (stuck_ne_next s a)

theorem andThen {o : Host.Outcome α Fault Refusal} {f : α → Host.Outcome β Fault Refusal} (ho : Answers Q o)
    (hf : ∀ a, Q a → Answers R (f a)) : Answers R (Machine.andThen o f) := by
  intro c hc
  obtain ⟨a, ha, hc⟩ := andThen_eq_next.1 hc
  exact hf a (ho a ha) c hc

theorem ite {c : Prop} [Decidable c] {o o' : Host.Outcome α Fault Refusal} (ho : Answers Q o) (ho' : Answers Q o') :
    Answers Q (if c then o else o') := by
  split
  · exact ho
  · exact ho'

/-- A computation whose answer does not matter. -/
theorem any (o : Host.Outcome α Fault Refusal) : Answers (fun _ => True) o := fun _ _ => trivial

end Answers

/-- No step of `DEV` is due, and buffer `b` holds `image`. -/
def State.Untouched (b : BufId) (image : Vector Byte 64) (s : State) : Prop := s.Quiet ∧ s.bufMem[b] = image

/-- Hardware owns buffer `b`, which is untouched. -/
def State.Guarded (b : BufId) (image : Vector Byte 64) (s : State) : Prop :=
  s.Untouched b image ∧ s.ownerOf b = .hw

/-! ### The transactions that write no buffer (R141 to R191) -/

namespace State.Untouched

variable {b : BufId} {image : Vector Byte 64} {s : State}

theorem collects (h : s.Untouched b image) (sent : Word) (es : List EpId) :
    (es.foldl (collect sent) s).Untouched b image := by
  induction es generalizing s with
  | nil => exact h
  | cons e es ih =>
    refine ih ?_
    unfold collect
    split
    · split <;> exact h
    · exact h

theorem regRead (h : s.Untouched b image) (r : Reg) :
    Answers (fun p => p.2.Untouched b image) (Machine.regRead r s) := by
  cases r with
  | avOutBuffer | avSetupBuffer => exact .refuse _ s
  | inSent => exact .next (h.collects _ _)
  | rxFifo =>
    rw [Machine.regRead, readRxFifo]
    split <;> exact .next h
  | _ => exact .next h

theorem storeConfig (h : s.Untouched b image) (e : EpId) (v : Word) :
    (Machine.storeConfig e v s).Untouched b image := by
  obtain ⟨p, n, hstore⟩ := storeConfig_eq e v s
  rw [hstore]
  exact h

theorem inHandOff (h : s.Untouched b image) (e : EpId) (v : Word) :
    Answers (State.Untouched b image) (Machine.inHandOff e v s) := .ite (.raise _ s) (.ite (.raise _ s) (.next h))

theorem regWrite (h : s.Untouched b image) (r : Reg) (v : Word) :
    Answers (State.Untouched b image) (Machine.regWrite r v s) := by
  cases r with
  | usbstat | rxFifo | outDataToggle | inDataToggle | phyPinsSense => exact .refuse _ s
  | alertTest | usbctrl | setNakOut | phyPinsDrive | phyConfig => exact .ite (.refuse _ s) (.next h)
  | avOutBuffer | avSetupBuffer => exact .ite (.raise _ s) (.ite (.raise _ _) (.next h))
  | configIn e =>
    exact .ite (.refuse _ s) (.ite (.raise _ s) (.ite
      ((h.inHandOff e v).andThen fun _ hu => .next (hu.storeConfig e v)) (.next (h.storeConfig e v))))
  | _ => exact .next h

theorem bufRead (h : s.Untouched b image) (b' : BufId) (k : WordIx) :
    Answers (fun p => p.2.Untouched b image) (Machine.bufRead b' k s) := .ite (.raise _ s) (.next h)

theorem readCommand (h : s.Untouched b image) (r : Reg) :
    Answers (State.Untouched b image) (Machine.readCommand (Machine.regRead r) s) :=
  (h.regRead r).andThen fun _ hp => .next hp

theorem writeCommand (h : s.Untouched b image) (r : Reg) (v : Word) :
    Answers (State.Untouched b image) (Machine.writeCommand (Machine.regWrite r v) s) :=
  (h.regWrite r v).andThen fun _ hu => .next hu

theorem devPoint (h : s.Untouched b image) : (Machine.devPoint s).Untouched b image := by
  rwa [devPoint_quiet h.1]

theorem devRead (h : s.Untouched b image) (r : Reg) :
    Answers (fun p => p.2.Untouched b image) (Machine.devRead r s) :=
  (h.devPoint.regRead r).andThen fun _ hp => .next hp

theorem devWrite (h : s.Untouched b image) (r : Reg) (v : Word) :
    Answers (State.Untouched b image) (Machine.devWrite r v s) :=
  (h.devPoint.regWrite r v).andThen fun _ hu => .next hu

theorem modify (h : s.Untouched b image) (r : Reg) (f : Word → Word) :
    Answers (State.Untouched b image) (Machine.modify r f s) :=
  (h.devRead r).andThen fun _ hp => hp.devWrite r _

theorem busBufRead (h : s.Untouched b image) (b' : BufId) (k : WordIx) :
    Answers (fun p => p.2.Untouched b image) (busRead (Machine.bufRead b' k) s) :=
  (h.devPoint.bufRead b' k).andThen fun _ hp => .next hp

/-! ### The operations that write no buffer (R200, R262, R264, R291) -/

theorem supplyScan (h : s.Untouched b image) (ids : List Nat) (m : Word) :
    Answers (fun p => p.2.Untouched b image) (Machine.supplyScan ids m s) := by
  induction ids generalizing m s with
  | nil => exact .next h
  | cons i ids ih =>
    have supply {u : State} (hu : u.Untouched b image) (r : Reg) : Answers (fun p => p.2.Untouched b image)
        (Machine.andThen (Machine.devWrite r (availWord i) u) (Machine.supplyScan ids (m &&& ~~~(bit i)))) :=
      (hu.devWrite r _).andThen fun _ ht => ih ht _
    exact .ite ((h.devRead _).andThen fun _ hp => .ite
      ((hp.devRead _).andThen fun _ hq => .ite (.next hq) (supply hq _)) (supply hp _)) (ih h m)

theorem memWriteBytes (h : s.Untouched b image) (addr : Nat) (bytes : List Byte) :
    Answers (State.Untouched b image) (Machine.memWriteBytes addr bytes s) := by
  induction bytes generalizing addr s with
  | nil => exact .next h
  | cons v vs ih =>
    have hset : ({ s with mem := Memory.set s.mem addr v } : State).Untouched b image := h
    exact .ite (ih hset _) (.stuck s)

theorem memWrite4 (h : s.Untouched b image) (addr : Nat) (w : Word) :
    Answers (State.Untouched b image) (Machine.memWrite4 addr w s) := .ite (.next h) (.stuck s)

theorem getWords (h : s.Untouched b image) (b' : BufId) (data : Nat) (ks : List WordIx) :
    Answers (State.Untouched b image) (Machine.getWords b' data ks s) := by
  induction ks generalizing s with
  | nil => exact .next h
  | cons k ks ih =>
    exact (h.busBufRead b' k).andThen fun _ hp => (hp.memWrite4 _ _).andThen fun _ hu => ih hu

theorem fromDevice (h : s.Untouched b image) (buf data n : Nat) :
    Answers (State.Untouched b image) (Machine.fromDevice buf data n s) :=
  .ite (.raise _ s) (.ite (.raise _ s) ((h.getWords _ data _).andThen fun _ hu =>
    .ite (.next hu) ((hu.busBufRead _ _).andThen fun _ hp => hp.memWriteBytes _ _)))

theorem packetCollected (h : s.Untouched b image) :
    Answers (State.Untouched b image) (execPacketCollected s) := by
  refine (h.devRead _).andThen fun p hp => ?_
  split
  · exact .next hp
  · exact (hp.devWrite _ _).andThen fun _ hu => (hu.devRead _).andThen fun _ hq => .next hq

theorem recvPacket (h : s.Untouched b image) (data : Nat) :
    Answers (State.Untouched b image) (execRecvPacket data s) :=
  .ite ((h.devRead _).andThen fun _ hp => .ite (.next hp) ((hp.devRead _).andThen fun _ hq => .ite (.raise _ _)
    ((Answers.ite (hq.fromDevice _ _ _) (.next hq)).andThen fun _ hu => .next hu))) (.refuse _ s)

end State.Untouched

/-! ### The operations that write a buffer (R192, R260, R290) -/

namespace State.Guarded

variable {b : BufId} {image : Vector Byte 64} {s : State}

/-- A buffer that software may write is another one (R192). -/
theorem bufWrite (h : s.Guarded b image) (b' : BufId) (k : WordIx) (v : Word) :
    Answers (State.Guarded b image) (Machine.bufWrite b' k v s) := by
  obtain ⟨⟨hquiet, hbuf⟩, hown⟩ := h
  rw [Machine.bufWrite]
  split
  case isTrue => exact .raise _ s
  case isFalse hsw =>
    have hne : b'.val ≠ b.val := fun heq => hsw (Fin.ext heq ▸ hown)
    have hother : (s.setBuffer b' (putWord s.bufMem[b'] k v)).bufMem[b] = s.bufMem[b] :=
      Vector.getElem_set_ne b'.isLt b.isLt hne
    exact .next ⟨⟨hquiet, hother.trans hbuf⟩, hown⟩

theorem busBufWrite (h : s.Guarded b image) (b' : BufId) (k : WordIx) (v : Word) :
    Answers (State.Guarded b image) (busWrite (Machine.bufWrite b' k v) s) := by
  have hpoint : (devPoint s).Guarded b image := by rwa [devPoint_quiet h.1.1]
  exact (hpoint.bufWrite b' k v).andThen fun _ hu => .next hu

theorem putWords (h : s.Guarded b image) (b' : BufId) (data : Nat) (ks : List WordIx) :
    Answers (State.Guarded b image) (Machine.putWords b' data ks s) := by
  induction ks generalizing s with
  | nil => exact .next h
  | cons k ks ih =>
    exact (Answers.any _).andThen fun w _ =>
      (h.busBufWrite b' k w).andThen fun _ hu => ih hu

theorem toDevice (h : s.Guarded b image) (buf data n : Nat) :
    Answers (State.Guarded b image) (Machine.toDevice buf data n s) :=
  .ite (.raise _ s) (.ite (.raise _ s) ((h.putWords _ data _).andThen fun _ hu =>
    .ite (.next hu) ((Answers.any _).andThen fun _ _ => hu.busBufWrite _ _ _)))

/-- `send_packet` hands its buffer over only after its copy (R260). -/
theorem sendPacket (h : s.Guarded b image) (buf ep data size : Nat) :
    Answers (State.Untouched b image) (execSendPacket buf ep data size s) :=
  .ite (.ite (.raise _ s) ((Answers.ite (h.toDevice _ _ _) (.next h)).andThen fun _ hu =>
    (hu.1.devWrite _ _).andThen fun _ hv => (hv.devRead _).andThen fun _ hp =>
      (hp.devWrite _ _).andThen fun _ hw => .next hw)) (.refuse _ s)

/-! ### The instructions -/

/-- An instruction that completes leaves a hardware-owned buffer as it was. -/
theorem exec (h : s.Guarded b image) (i : Instr) : Answers (State.Untouched b image) (Machine.exec i s) := by
  have hu : s.Untouched b image := h.1
  cases i with
  | rdIntrState | rdIntrEnable | rdIntrTest | rdAlertTest | rdUsbctrl | rdEpOutEnable | rdEpInEnable | rdUsbstat
  | rdAvoutbuffer | rdAvsetupbuffer | rdRxfifo | rdRxenableSetup | rdRxenableOut | rdSetNakOut | rdInSent | rdOutStall
  | rdInStall | rdConfigin0 | rdConfigin1 | rdConfigin2 | rdConfigin3 | rdConfigin4 | rdConfigin5 | rdConfigin6
  | rdConfigin7 | rdConfigin8 | rdConfigin9 | rdConfigin10 | rdConfigin11 | rdOutIso | rdInIso | rdOutDataToggle
  | rdInDataToggle | rdPhyPinsSense | rdPhyPinsDrive | rdPhyConfig =>
    rw [Machine.exec]
    exact hu.readCommand _
  | rdBuf b' k => exact (hu.bufRead b' k).andThen fun _ hp => .next hp
  | wrBuf b' k v => exact (h.bufWrite b' k v).andThen fun _ ht => .next ht.1
  | wrBufB | wrBufH => exact .next hu
  | rdUnmapped090 | wrUnmapped090 | rdUnmapped0A0 | wrUnmapped0A0 | rdUnmapped0C0 | wrUnmapped0C0
  | rdUnmapped100 | wrUnmapped100 | rdUnmapped200 | wrUnmapped200 | rdUnmapped400 | wrUnmapped400 => exact .refuse _ s
  | init =>
    rw [Machine.exec, execInit]
    exact (hu.devWrite _ _).andThen fun _ ht => .next ht
  | connect | disconnect => exact (hu.modify _ _).andThen fun _ ht => .next ht
  | connected =>
    rw [Machine.exec, execConnected]
    exact (hu.devRead _).andThen fun _ hp => .next hp
  | configureOutEndpoint =>
    exact .ite (.ite (.next hu) ((hu.modify _ _).andThen fun _ h1 => (h1.modify _ _).andThen fun _ h2 =>
      (h2.modify _ _).andThen fun _ h3 => (h3.modify _ _).andThen fun _ ht => .next ht)) (.refuse _ s)
  | configureInEndpoint | setEpStalling =>
    exact .ite (.ite (.next hu) ((hu.modify _ _).andThen fun _ h1 => (h1.modify _ _).andThen fun _ ht => .next ht))
      (.refuse _ s)
  | setDeviceAddress => exact .ite (.ite (.next hu) ((hu.modify _ _).andThen fun _ ht => .next ht)) (.refuse _ s)
  | supplyBuffers => exact .ite ((hu.supplyScan _ _).andThen fun _ hp => .next hp) (.refuse _ s)
  | sendPacket buf ep data size => exact h.sendPacket buf ep data size
  | packetCollected => exact hu.packetCollected
  | recvPacket data => exact hu.recvPacket data
  | transferToDevice => exact .ite ((h.toDevice _ _ _).andThen fun _ ht => .next ht.1) (.refuse _ s)
  | transferFromDevice => exact .ite ((hu.fromDevice _ _ _).andThen fun _ ht => .next ht) (.refuse _ s)
  | interruptEnable | interruptDisable => exact .ite ((hu.modify _ _).andThen fun _ ht => .next ht) (.refuse _ s)
  | _ =>
    rw [Machine.exec]
    exact hu.writeCommand _ _

end State.Guarded

/-- Settles O60: what an instruction does before it completes keeps the bytes of a buffer that hardware owned. -/
theorem softwareLeavesHardwareBuffers : Obligations.SoftwareLeavesHardwareBuffers := by
  intro i s t b hquiet ht hown
  have hguarded : s.Guarded b s.bufMem[b] := ⟨⟨hquiet, rfl⟩, hown⟩
  exact (hguarded.exec i t ht).2

end Sys2Proof.Machine

/-! SUPPORT. The state after reset (R380): no buffer is in a hardware structure, so it meets the machine's invariant
whatever the draws of R380 are. -/

namespace Sys2Proof.Machine

@[simp] theorem ownerOf_reset (b : BufId) : State.reset.ownerOf b = .sw := Vector.getElem_replicate b.isLt

@[simp] theorem inOwnOf_reset (e : EpId) : State.reset.inOwnOf e = none := Vector.getElem_replicate e.isLt

@[simp] theorem configOf_reset (e : EpId) : State.reset.configOf e = 0#32 := Vector.getElem_replicate e.isLt

/-- The draw of PHY_CONFIG does not reach bit 0 (R47, R380). -/
theorem phyConfig_reset_bit_zero : State.reset.phyConfig.getLsbD 0 = false := by
  simp [State.reset]

/-- Of USBSTAT after reset only Sense is a draw (R30, R380). -/
theorem usbstat_reset (sense : Bool) :
    ({ State.reset with sense := sense } : State).usbstat = if sense then 0x80008000#32 else 0x80000000#32 := by
  revert sense
  decide

/-- Settles O56: the values are those the state is written with, and `usbstat_reset` names the draw in USBSTAT. -/
theorem resetState : Obligations.ResetState :=
  ⟨rfl, rfl, rfl, rfl, rfl, rfl, rfl, rfl, rfl, rfl, rfl, rfl, rfl, rfl, rfl, configOf_reset, rfl,
    phyConfig_reset_bit_zero, rfl, rfl, rfl, rfl, rfl, rfl, ownerOf_reset, inOwnOf_reset, rfl, rfl, rfl, rfl, rfl,
    _, usbstat_reset Config.resetSense⟩

theorem params_default_ok : Params.default.Ok := by decide

/-- No structure holds a buffer after reset (R380). -/
theorem hwRef_reset (b : BufId) : State.reset.hwRef b = 0 := by
  have hin : State.reset.inOwn.toList.count (some b) = 0 :=
    List.count_eq_zero.2 (by simp [State.reset])
  rw [State.hwRef, hin]
  rfl

theorem reset_owned : State.reset.Owned := fun b => by simp [hwRef_reset]

theorem reset_reservedZero : State.reset.ReservedZero :=
  ⟨rfl, rfl, rfl, rfl, rfl, rfl, rfl, rfl, rfl, rfl, rfl, fun e => by simp, rfl, rfl, rfl, rfl, rfl⟩

theorem reset_queuesInRange : State.reset.QueuesInRange :=
  ⟨Nat.zero_le _, Nat.zero_le _, Nat.zero_le _, List.forall_mem_nil _⟩

theorem reset_inRecords : State.reset.InRecords := fun e => by simp [sendingBit, readyBit]

/-- Settles O57: each clause of the invariant speaks of fields that R380 fixes. -/
theorem invAtReset : Obligations.InvAtReset where
  params := params_default_ok
  owned := reset_owned
  reserved := reset_reservedZero
  queues := reset_queuesInRange
  inRecords := reset_inRecords
  memory := rfl
  running := rfl

end Sys2Proof.Machine
